-- ==== Sys2Proof/Word.lean ====
section
/-! DEFINITION. The words of the machine (spec/00_scope.md R10, R12, spec/30_encoding.md R81): bytes, 16-bit words,
the opcode fields, the register numbers, and the time values of the Scheduler. -/

namespace Sys2Proof

/-- An 8-bit value: a general register, SP, a timer, one memory byte (R20, R27, R28, R50). -/
abbrev Byte := BitVec 8

/-- A 16-bit value: PC, I, a return address, an opcode, a breakpoint address (R23, R26, R30, R38, R80). -/
abbrev Word := BitVec 16

/-- The 4-bit field `n` of an opcode (R81). -/
abbrev Nibble := BitVec 4

/-- The 12-bit field `nnn` of an opcode (R81). -/
abbrev Addr12 := BitVec 12

/-- A general register number, 0 to 15 (R20): `V[k]`. -/
abbrev Reg := Fin 16

/-- A key index of the Input contract, 0 to 15 (R201). -/
abbrev Key := Fin 16

/-- A wall-clock time, an exact number of seconds from an arbitrary origin (R221, R222). -/
abbrev Time := Rat

/-- The register VF, `V[15]` (R12, R21). -/
abbrev regVF : Reg := 15

/-- The register V0, `V[0]`, the implicit operand of `Bnnn` (R12, R123). -/
abbrev regV0 : Reg := 0

end Sys2Proof
end

