-- ==== Sys2Proof/Config.lean ====
section
/-! DEFINITION. What one implementation fixes for the life of an interpreter (spec/00_scope.md R8, R9,
spec/10_state.md R41), and the free values: the answers that come from outside the core and on which the spec states
no law (R153, R200 to R202, R222, R226). A `Config` is a record of plain data that every State carries unchanged, so a
statement about every state is a statement about every configuration. The free values are constants without a body. -/

namespace Sys2Proof

/-- Which of the two writes of a flag-writing instruction comes last (R155, decision D9). It matters only for
`x = 15`. -/
inductive VfOrder where
  | flagLast
  | resultLast
deriving DecidableEq, Repr

/-- What stands behind the Display handle (R9, R200): nothing (headless), an unspecified Display of which only the
contract is known, or the informative reference Display of R204. -/
inductive DisplayKind where
  | absent
  | oracle
  | reference
deriving DecidableEq, Repr

/-- The 80 bytes of the glyph table (R57, R75). -/
abbrev GlyphTable := Vector Byte 80

/-- The configuration of one interpreter (R8, R9, R41): no operation of the machine changes it. -/
structure Config where
  /-- `has_display`, and which Display it is. -/
  display : DisplayKind
  /-- `has_input`. -/
  hasInput : Bool
  /-- `GLYPH[0..79]`, the content of `Mem[0..79]` after a reset. -/
  glyph : GlyphTable
  /-- `VF_ORDER`. -/
  vfOrder : VfOrder
  /-- `DISPLAY_W`, used by the reference Display only. -/
  displayW : Nat
  /-- `DISPLAY_H`, used by the reference Display only. -/
  displayH : Nat
deriving DecidableEq, Repr

/-- `has_display` (R9). -/
def Config.hasDisplay (c : Config) : Bool :=
  match c.display with
  | .absent => false
  | .oracle => true
  | .reference => true

/-- FREE VALUE. The byte of the `k`-th free answer, taken by `Cxnn` (R153, decision D11). -/
opaque Config.freeByte : Nat → Byte

/-- FREE VALUE. The collision answer of an oracle Display (R198, R200, decision D16). -/
opaque Config.freeCollision : Nat → Bool

/-- FREE VALUE. A pixel as an oracle Display answers `getPixel` (R200). -/
opaque Config.freePixel : Nat → Bool

/-- FREE VALUE. The answer of `isKeyPressed` for an 8-bit key index (R201, R202, decision D13). -/
opaque Config.freeKeyDown : Nat → Byte → Bool

/-- FREE VALUE. What `waitForKey` has to say when it is asked: a key, or that none has arrived yet (R195, R203). -/
opaque Config.freeKey : Nat → Option Key

/-- FREE VALUE. The answer of `pollAndContinue` (R201). -/
opaque Config.freePoll : Nat → Bool

/-- FREE VALUE. Whether the host has set `cancel_requested` since it was last sampled (R226, decision D19). -/
opaque Config.freeCancel : Nat → Bool

/-- FREE VALUE. The time that has passed between two answers of `now()` (R222); a negative value counts as 0. -/
opaque Config.freeElapsed : Nat → Time

end Sys2Proof
end

