-- ==== Sys2Proof/Syntax.lean ====
section
/-! DEFINITION. The instructions: one constructor per row of spec/opcode_table.json, named by the row's pattern
(spec/30_encoding.md R85, R90), with the fields the pattern names (R81, R82). The row `UNRECOGNIZED` is the class of
the words that select no other row (R86, R87). -/

namespace Sys2Proof

/-- The 34 instructions of R85 and the class `UNRECOGNIZED` of R86. Fields that an instruction ignores (`y` of the
shifts, `n` of `5xy0` and `9xy0`, R89) are kept, so that every 16-bit word is the encoding of exactly one term. -/
inductive Instr where
  /-- `00E0`: clear display (R196). -/
  | op00E0
  /-- `00EE`: return from subroutine (R120). -/
  | op00EE
  /-- `1nnn`: jump (R121). -/
  | op1nnn (nnn : Addr12)
  /-- `2nnn`: call subroutine (R122). -/
  | op2nnn (nnn : Addr12)
  /-- `3xnn`: skip if register equals immediate (R130). -/
  | op3xnn (x : Reg) (nn : Byte)
  /-- `4xnn`: skip if register differs from immediate (R131). -/
  | op4xnn (x : Reg) (nn : Byte)
  /-- `5xy0`: skip if registers equal (R132); `n` is not examined. -/
  | op5xy0 (x y : Reg) (n : Nibble)
  /-- `6xnn`: load immediate (R140). -/
  | op6xnn (x : Reg) (nn : Byte)
  /-- `7xnn`: add immediate (R141). -/
  | op7xnn (x : Reg) (nn : Byte)
  /-- `8xy0`: register copy (R142). -/
  | op8xy0 (x y : Reg)
  /-- `8xy1`: bitwise OR (R143). -/
  | op8xy1 (x y : Reg)
  /-- `8xy2`: bitwise AND (R144). -/
  | op8xy2 (x y : Reg)
  /-- `8xy3`: bitwise exclusive OR (R145). -/
  | op8xy3 (x y : Reg)
  /-- `8xy4`: add with carry flag (R146). -/
  | op8xy4 (x y : Reg)
  /-- `8xy5`: subtract (R147). -/
  | op8xy5 (x y : Reg)
  /-- `8xy6`: shift right by one (R148); `y` is ignored. -/
  | op8xy6 (x y : Reg)
  /-- `8xy7`: reverse subtract (R149). -/
  | op8xy7 (x y : Reg)
  /-- `8xyE`: shift left by one (R150); `y` is ignored. -/
  | op8xyE (x y : Reg)
  /-- `9xy0`: skip if registers differ (R133); `n` is not examined. -/
  | op9xy0 (x y : Reg) (n : Nibble)
  /-- `Annn`: load index register (R170). -/
  | opAnnn (nnn : Addr12)
  /-- `Bnnn`: jump with offset V0 (R123). -/
  | opBnnn (nnn : Addr12)
  /-- `Cxnn`: random byte with mask (R151). -/
  | opCxnn (x : Reg) (nn : Byte)
  /-- `Dxyn`: draw sprite (R197). -/
  | opDxyn (x y : Reg) (n : Nibble)
  /-- `Ex9E`: skip if key pressed (R193). -/
  | opEx9E (x : Reg)
  /-- `ExA1`: skip if key not pressed (R194). -/
  | opExA1 (x : Reg)
  /-- `Fx07`: read delay timer (R190). -/
  | opFx07 (x : Reg)
  /-- `Fx0A`: wait for a key (R195). -/
  | opFx0A (x : Reg)
  /-- `Fx15`: set delay timer (R191). -/
  | opFx15 (x : Reg)
  /-- `Fx18`: set sound timer (R192). -/
  | opFx18 (x : Reg)
  /-- `Fx1E`: add register to index (R171). -/
  | opFx1E (x : Reg)
  /-- `Fx29`: point I at a glyph (R173). -/
  | opFx29 (x : Reg)
  /-- `Fx33`: store binary-coded decimal (R174). -/
  | opFx33 (x : Reg)
  /-- `Fx55`: store registers (R175). -/
  | opFx55 (x : Reg)
  /-- `Fx65`: load registers (R176). -/
  | opFx65 (x : Reg)
  /-- `UNRECOGNIZED`: the word `op` selects no row (R87, R106). -/
  | opUnrecognized (op : Word)
deriving DecidableEq, Repr

end Sys2Proof
end

