-- ==== Sys2Proof/WellFormed.lean ====
section
/-! DEFINITION. Which terms of `Instr` are instructions. Register numbers and immediates are bounded by their types;
the one check left is that the word of `opUnrecognized` really selects no row of the opcode map
(spec/30_encoding.md R85, R86, R87). -/

namespace Sys2Proof

/-- One row of the opcode map: a word `op` selects it when `op &&& mask = code` (R85). -/
structure OpcodeRow where
  mnemonic : String
  code : Word
  mask : Word
deriving DecidableEq, Repr

/-- The rows of families 0 to 7 (R84, R85). -/
def opcodeRowsLow : List OpcodeRow :=
  [⟨"00E0", 0x00E0, 0xFFFF⟩, ⟨"00EE", 0x00EE, 0xFFFF⟩, ⟨"1nnn", 0x1000, 0xF000⟩, ⟨"2nnn", 0x2000, 0xF000⟩,
   ⟨"3xnn", 0x3000, 0xF000⟩, ⟨"4xnn", 0x4000, 0xF000⟩, ⟨"5xy0", 0x5000, 0xF000⟩, ⟨"6xnn", 0x6000, 0xF000⟩,
   ⟨"7xnn", 0x7000, 0xF000⟩]

/-- The rows of family 8 (R84, R85). -/
def opcodeRowsAlu : List OpcodeRow :=
  [⟨"8xy0", 0x8000, 0xF00F⟩, ⟨"8xy1", 0x8001, 0xF00F⟩, ⟨"8xy2", 0x8002, 0xF00F⟩, ⟨"8xy3", 0x8003, 0xF00F⟩,
   ⟨"8xy4", 0x8004, 0xF00F⟩, ⟨"8xy5", 0x8005, 0xF00F⟩, ⟨"8xy6", 0x8006, 0xF00F⟩, ⟨"8xy7", 0x8007, 0xF00F⟩,
   ⟨"8xyE", 0x800E, 0xF00F⟩]

/-- The rows of families 9 to F (R84, R85). -/
def opcodeRowsHigh : List OpcodeRow :=
  [⟨"9xy0", 0x9000, 0xF000⟩, ⟨"Annn", 0xA000, 0xF000⟩, ⟨"Bnnn", 0xB000, 0xF000⟩, ⟨"Cxnn", 0xC000, 0xF000⟩,
   ⟨"Dxyn", 0xD000, 0xF000⟩, ⟨"Ex9E", 0xE09E, 0xF0FF⟩, ⟨"ExA1", 0xE0A1, 0xF0FF⟩, ⟨"Fx07", 0xF007, 0xF0FF⟩,
   ⟨"Fx0A", 0xF00A, 0xF0FF⟩, ⟨"Fx15", 0xF015, 0xF0FF⟩, ⟨"Fx18", 0xF018, 0xF0FF⟩, ⟨"Fx1E", 0xF01E, 0xF0FF⟩,
   ⟨"Fx29", 0xF029, 0xF0FF⟩, ⟨"Fx33", 0xF033, 0xF0FF⟩, ⟨"Fx55", 0xF055, 0xF0FF⟩, ⟨"Fx65", 0xF065, 0xF0FF⟩]

/-- The opcode map of R85, one row per instruction. -/
def opcodeRows : List OpcodeRow := opcodeRowsLow ++ opcodeRowsAlu ++ opcodeRowsHigh

/-- `op` selects the row `r` (R85). -/
def OpcodeRow.selectedBy (r : OpcodeRow) (op : Word) : Bool := (op &&& r.mask) == r.code

/-- `op` selects some row of the map; the other words are `UNRECOGNIZED` (R86). -/
def recognized (op : Word) : Bool := opcodeRows.any (fun r => r.selectedBy op)

/-- The check on a term of `Instr`: an `opUnrecognized` carries a word that no row of R85 takes. -/
def Instr.wellFormed (i : Instr) : Bool :=
  match i with
  | .op00E0 => true
  | .op00EE => true
  | .op1nnn _ => true
  | .op2nnn _ => true
  | .op3xnn _ _ => true
  | .op4xnn _ _ => true
  | .op5xy0 _ _ _ => true
  | .op6xnn _ _ => true
  | .op7xnn _ _ => true
  | .op8xy0 _ _ => true
  | .op8xy1 _ _ => true
  | .op8xy2 _ _ => true
  | .op8xy3 _ _ => true
  | .op8xy4 _ _ => true
  | .op8xy5 _ _ => true
  | .op8xy6 _ _ => true
  | .op8xy7 _ _ => true
  | .op8xyE _ _ => true
  | .op9xy0 _ _ _ => true
  | .opAnnn _ => true
  | .opBnnn _ => true
  | .opCxnn _ _ => true
  | .opDxyn _ _ _ => true
  | .opEx9E _ => true
  | .opExA1 _ => true
  | .opFx07 _ => true
  | .opFx0A _ => true
  | .opFx15 _ => true
  | .opFx18 _ => true
  | .opFx1E _ => true
  | .opFx29 _ => true
  | .opFx33 _ => true
  | .opFx55 _ => true
  | .opFx65 _ => true
  | .opUnrecognized op => !recognized op

/-- The mnemonic of the row an instruction belongs to, as spec/opcode_table.json spells it. -/
def Instr.mnemonic (i : Instr) : String :=
  match i with
  | .op00E0 => "00E0"
  | .op00EE => "00EE"
  | .op1nnn _ => "1nnn"
  | .op2nnn _ => "2nnn"
  | .op3xnn _ _ => "3xnn"
  | .op4xnn _ _ => "4xnn"
  | .op5xy0 _ _ _ => "5xy0"
  | .op6xnn _ _ => "6xnn"
  | .op7xnn _ _ => "7xnn"
  | .op8xy0 _ _ => "8xy0"
  | .op8xy1 _ _ => "8xy1"
  | .op8xy2 _ _ => "8xy2"
  | .op8xy3 _ _ => "8xy3"
  | .op8xy4 _ _ => "8xy4"
  | .op8xy5 _ _ => "8xy5"
  | .op8xy6 _ _ => "8xy6"
  | .op8xy7 _ _ => "8xy7"
  | .op8xyE _ _ => "8xyE"
  | .op9xy0 _ _ _ => "9xy0"
  | .opAnnn _ => "Annn"
  | .opBnnn _ => "Bnnn"
  | .opCxnn _ _ => "Cxnn"
  | .opDxyn _ _ _ => "Dxyn"
  | .opEx9E _ => "Ex9E"
  | .opExA1 _ => "ExA1"
  | .opFx07 _ => "Fx07"
  | .opFx0A _ => "Fx0A"
  | .opFx15 _ => "Fx15"
  | .opFx18 _ => "Fx18"
  | .opFx1E _ => "Fx1E"
  | .opFx29 _ => "Fx29"
  | .opFx33 _ => "Fx33"
  | .opFx55 _ => "Fx55"
  | .opFx65 _ => "Fx65"
  | .opUnrecognized _ => "UNRECOGNIZED"

end Sys2Proof
end

