-- ==== Sys2Proof/Decode.lean ====
section
/-! DEFINITION. The decoder, the encoder after it, and the instruction stream as bytes (spec/30_encoding.md R80 to
R89, spec/40_cycle.md R102, spec/20_memory.md R64). Decoding a 16-bit word is total (R86); the only thing a decoder of
BYTES can lack is a second byte. -/

namespace Sys2Proof

/-! ### Fields (R81) -/

/-- `top = op[15:12]`. -/
def fieldTop (op : Word) : Nibble := op.extractLsb' 12 4

/-- `x = op[11:8]`, a register number. -/
def fieldX (op : Word) : Reg := (op.extractLsb' 8 4).toFin

/-- `y = op[7:4]`, a register number. -/
def fieldY (op : Word) : Reg := (op.extractLsb' 4 4).toFin

/-- `n = op[3:0]`. -/
def fieldN (op : Word) : Nibble := op.extractLsb' 0 4

/-- `nn = op[7:0]`. -/
def fieldNN (op : Word) : Byte := op.extractLsb' 0 8

/-- `nnn = op[11:0]`. -/
def fieldNNN (op : Word) : Addr12 := op.extractLsb' 0 12

/-! ### Dispatch (R84) -/

/-- Family 0: the whole word must be `00E0` or `00EE`. -/
def decodeFamily0 (op : Word) : Instr :=
  if op = 0x00E0 then .op00E0 else if op = 0x00EE then .op00EE else .opUnrecognized op

/-- Family 8: secondary dispatch on `n`. -/
def decodeFamily8 (op : Word) : Instr :=
  match (fieldN op).toNat with
  | 0x0 => .op8xy0 (fieldX op) (fieldY op)
  | 0x1 => .op8xy1 (fieldX op) (fieldY op)
  | 0x2 => .op8xy2 (fieldX op) (fieldY op)
  | 0x3 => .op8xy3 (fieldX op) (fieldY op)
  | 0x4 => .op8xy4 (fieldX op) (fieldY op)
  | 0x5 => .op8xy5 (fieldX op) (fieldY op)
  | 0x6 => .op8xy6 (fieldX op) (fieldY op)
  | 0x7 => .op8xy7 (fieldX op) (fieldY op)
  | 0xE => .op8xyE (fieldX op) (fieldY op)
  | _ => .opUnrecognized op

/-- Family E: secondary dispatch on `nn`. -/
def decodeFamilyE (op : Word) : Instr :=
  match (fieldNN op).toNat with
  | 0x9E => .opEx9E (fieldX op)
  | 0xA1 => .opExA1 (fieldX op)
  | _ => .opUnrecognized op

/-- Family F: secondary dispatch on `nn`. -/
def decodeFamilyF (op : Word) : Instr :=
  match (fieldNN op).toNat with
  | 0x07 => .opFx07 (fieldX op)
  | 0x0A => .opFx0A (fieldX op)
  | 0x15 => .opFx15 (fieldX op)
  | 0x18 => .opFx18 (fieldX op)
  | 0x1E => .opFx1E (fieldX op)
  | 0x29 => .opFx29 (fieldX op)
  | 0x33 => .opFx33 (fieldX op)
  | 0x55 => .opFx55 (fieldX op)
  | 0x65 => .opFx65 (fieldX op)
  | _ => .opUnrecognized op

/-- The decoder: "Dispatch on the top nibble, with secondary dispatch on `nn` or `n` for families 0x0, 0x8, 0xE,
0xF" (R84, R102). Every 16-bit word has a reading (R86). -/
def decode (op : Word) : Instr :=
  match (fieldTop op).toNat with
  | 0x0 => decodeFamily0 op
  | 0x1 => .op1nnn (fieldNNN op)
  | 0x2 => .op2nnn (fieldNNN op)
  | 0x3 => .op3xnn (fieldX op) (fieldNN op)
  | 0x4 => .op4xnn (fieldX op) (fieldNN op)
  | 0x5 => .op5xy0 (fieldX op) (fieldY op) (fieldN op)
  | 0x6 => .op6xnn (fieldX op) (fieldNN op)
  | 0x7 => .op7xnn (fieldX op) (fieldNN op)
  | 0x8 => decodeFamily8 op
  | 0x9 => .op9xy0 (fieldX op) (fieldY op) (fieldN op)
  | 0xA => .opAnnn (fieldNNN op)
  | 0xB => .opBnnn (fieldNNN op)
  | 0xC => .opCxnn (fieldX op) (fieldNN op)
  | 0xD => .opDxyn (fieldX op) (fieldY op) (fieldN op)
  | 0xE => decodeFamilyE op
  | _ => decodeFamilyF op

/-! ### Bytes (R64, R80) -/

/-- Why a list of bytes holds no instruction: fewer than two bytes are left. (The FETCH of the machine never meets
this: a byte that is not there reads as 0, R101.) -/
inductive DecodeReject where
  | truncated
deriving DecidableEq, Repr

/-- A 16-bit value from its two bytes, the high-order byte first: `(hi << 8) | lo` (R64, R101). -/
def wordOfBytes (hi lo : Byte) : Word := hi ++ lo

/-- The high-order byte of a word. -/
def hiByte (w : Word) : Byte := w.extractLsb' 8 8

/-- The low-order byte of a word. -/
def loByte (w : Word) : Byte := w.extractLsb' 0 8

/-- A word as it lies in memory, high-order byte at the lower address (R64). -/
def bytesOfWord (w : Word) : List Byte := [hiByte w, loByte w]

/-- Decode the instruction at the head of a list of bytes and give back the bytes after it. -/
def decodeBytes : List Byte → Except DecodeReject (Instr × List Byte)
  | hi :: lo :: rest => .ok (decode (wordOfBytes hi lo), rest)
  | [_] => .error .truncated
  | [] => .error .truncated

/-! ### The encoder, from the formats of R82 and the match values of R85 -/

/-- A register number as the 4 bits of its field. -/
def regBits (r : Reg) : Nibble := BitVec.ofFin r

/-- Four nibbles as a word, `top` in bits 15:12. -/
def word4 (top x y n : Nibble) : Word := top ++ x ++ y ++ n

/-- Format NNN. -/
def encodeNNN (top : Nibble) (nnn : Addr12) : Word := top ++ nnn

/-- Format XNN, and format X with a constant `nn`. -/
def encodeXNN (top : Nibble) (x : Reg) (nn : Byte) : Word := top ++ regBits x ++ nn

/-- Formats XY (with the function code as `n`) and XYN. -/
def encodeXYN (top : Nibble) (x y : Reg) (n : Nibble) : Word := word4 top (regBits x) (regBits y) n

/-- The 16-bit word of an instruction (R82, R85). -/
def encode (i : Instr) : Word :=
  match i with
  | .op00E0 => 0x00E0
  | .op00EE => 0x00EE
  | .op1nnn nnn => encodeNNN 0x1 nnn
  | .op2nnn nnn => encodeNNN 0x2 nnn
  | .op3xnn x nn => encodeXNN 0x3 x nn
  | .op4xnn x nn => encodeXNN 0x4 x nn
  | .op5xy0 x y n => encodeXYN 0x5 x y n
  | .op6xnn x nn => encodeXNN 0x6 x nn
  | .op7xnn x nn => encodeXNN 0x7 x nn
  | .op8xy0 x y => encodeXYN 0x8 x y 0x0
  | .op8xy1 x y => encodeXYN 0x8 x y 0x1
  | .op8xy2 x y => encodeXYN 0x8 x y 0x2
  | .op8xy3 x y => encodeXYN 0x8 x y 0x3
  | .op8xy4 x y => encodeXYN 0x8 x y 0x4
  | .op8xy5 x y => encodeXYN 0x8 x y 0x5
  | .op8xy6 x y => encodeXYN 0x8 x y 0x6
  | .op8xy7 x y => encodeXYN 0x8 x y 0x7
  | .op8xyE x y => encodeXYN 0x8 x y 0xE
  | .op9xy0 x y n => encodeXYN 0x9 x y n
  | .opAnnn nnn => encodeNNN 0xA nnn
  | .opBnnn nnn => encodeNNN 0xB nnn
  | .opCxnn x nn => encodeXNN 0xC x nn
  | .opDxyn x y n => encodeXYN 0xD x y n
  | .opEx9E x => encodeXNN 0xE x 0x9E
  | .opExA1 x => encodeXNN 0xE x 0xA1
  | .opFx07 x => encodeXNN 0xF x 0x07
  | .opFx0A x => encodeXNN 0xF x 0x0A
  | .opFx15 x => encodeXNN 0xF x 0x15
  | .opFx18 x => encodeXNN 0xF x 0x18
  | .opFx1E x => encodeXNN 0xF x 0x1E
  | .opFx29 x => encodeXNN 0xF x 0x29
  | .opFx33 x => encodeXNN 0xF x 0x33
  | .opFx55 x => encodeXNN 0xF x 0x55
  | .opFx65 x => encodeXNN 0xF x 0x65
  | .opUnrecognized op => op

/-- The bytes of an instruction as they lie in memory. -/
def encodeBytes (i : Instr) : List Byte := bytesOfWord (encode i)

/-! ### The opcode table's numbering of bits -/

/-- The one word of an instruction whose bits, numbered as spec/opcode_table.json numbers them, are the low `nbits` of
`w`: every bit above is 0. -/
def tableWord (nbits w : Nat) : Word := BitVec.ofNat 16 (w % 2 ^ nbits)

/-- The instruction this decoder reads from an opcode-table word laid out in memory order. -/
def decodeTableWord (nbits w : Nat) : Option Instr :=
  match decodeBytes (bytesOfWord (tableWord nbits w)) with
  | .ok (i, _) => some i
  | .error _ => none

end Sys2Proof
end

