-- ==== Sys2Proof/Machine/Params.lean ====
section
/-! DEFINITION. The parameters the source fixes (spec/00_scope.md R8) and the defaults of the open ones: the
conventional font (spec/20_memory.md R75) and the configuration a State starts from. -/

namespace Sys2Proof.Machine

/-- `MEM_SIZE` (R8, R50). -/
def memSize : Nat := 4096

/-- `PROGRAM_BASE`: load address and reset PC (R8, R34, R58). -/
def programBase : Word := 0x200

/-- `MAX_PROGRAM` (R8, R58). -/
def maxProgram : Nat := 3584

/-- `GLYPH_BASE` (R8, R57). -/
def glyphBase : Nat := 0

/-- Bytes per glyph (R75, R173). -/
def glyphSize : Nat := 5

/-- `STACK_DEPTH` (R8, R30). -/
def stackDepth : Nat := 16

/-- `CYCLE_PERIOD`, in seconds (R8, R221). -/
def cyclePeriod : Time := 1 / 500

/-- `TIMER_PERIOD`, in seconds (R8, R221). -/
def timerPeriod : Time := 1 / 60

/-- The conventional hexadecimal font, the default of `GLYPH` (R75). PRESUMED (log 3): "from general knowledge, not
in source". -/
def conventionalFont : GlyphTable :=
  #v[0xF0, 0x90, 0x90, 0x90, 0xF0,  0x20, 0x60, 0x20, 0x20, 0x70,
     0xF0, 0x10, 0xF0, 0x80, 0xF0,  0xF0, 0x10, 0xF0, 0x10, 0xF0,
     0x90, 0x90, 0xF0, 0x10, 0x10,  0xF0, 0x80, 0xF0, 0x10, 0xF0,
     0xF0, 0x80, 0xF0, 0x90, 0xF0,  0xF0, 0x10, 0x20, 0x40, 0x40,
     0xF0, 0x90, 0xF0, 0x90, 0xF0,  0xF0, 0x90, 0xF0, 0x10, 0xF0,
     0xF0, 0x90, 0xF0, 0x90, 0x90,  0xE0, 0x90, 0xE0, 0x90, 0xE0,
     0xF0, 0x80, 0x80, 0x80, 0xF0,  0xE0, 0x90, 0x90, 0x90, 0xE0,
     0xF0, 0x80, 0xF0, 0x80, 0xF0,  0xF0, 0x80, 0xF0, 0x80, 0x80]

/-- The configuration `State.reset` starts from: the source's NORMAL configuration (R9), both collaborators attached,
the Display an oracle (R43, R200), `VF_ORDER` at its default (R155), the conventional font. DESIGN CHOICE (log 2): the
spec puts every configuration in scope; a statement holds for each of them, since it speaks of every State. -/
def defaultConfig : Config where
  display := .oracle
  hasInput := true
  glyph := conventionalFont
  vfOrder := .flagLast
  displayW := 64
  displayH := 32

end Sys2Proof.Machine
end

