-- ==== Sys2Proof/Machine/State.lean ====
section
/-! DEFINITION. The state of the whole machine as plain data: the Register component, the Stack, the Memory
(spec/10_state.md R20 to R36, spec/20_memory.md R50), the Debugger's and the Scheduler's own state (R38 to R40), the
pixels of the reference Display (R204), what has passed between the core and its collaborators (R200, R201), the
answers still to come from outside, and the host's calls (spec/70_reset_and_hazards.md R312). -/

namespace Sys2Proof.Machine

/-- Memory in its one canonical form: address and byte of every byte that differs from its reset content, addresses
strictly rising. What an unlisted address holds is `fillByte` (Machine/Ops.lean). -/
abbrev Memory := List Host.Cell

/-- The run state of the Scheduler (R39). -/
inductive RunState where
  | idle
  | running
  | stopped
deriving DecidableEq, Repr

/-- The control state of the Debugger (R40, R241). -/
inductive DebugControl where
  | halted
  | stepping
  | continuing
deriving DecidableEq, Repr

/-- One call of the core on a collaborator, with its arguments and the answer it got (R200, R201, decision D1). -/
inductive CollabCall where
  /-- `Display.clear()`. -/
  | clear
  /-- `Display.drawSprite(px, py, rows, rowCount) -> collision`. -/
  | drawSprite (px py : Byte) (rows : List Byte) (rowCount : Nibble) (collision : Bool)
  /-- `Display.render()`. -/
  | render
  /-- `Input.pollAndContinue() -> open`. -/
  | pollAndContinue (stillOpen : Bool)
  /-- `Input.isKeyPressed(key) -> pressed`. -/
  | isKeyPressed (key : Byte) (pressed : Bool)
  /-- `Input.waitForKey() -> key`, once it has answered. -/
  | waitForKey (key : Key)
deriving DecidableEq, Repr

/-- The snapshot of `inspectRegister()`: the complete register component (R254). -/
structure Snapshot where
  pc : Word
  i : Word
  v : Vector Byte 16
  sp : Byte
  dt : Byte
  st : Byte
deriving DecidableEq, Repr

/-- The outcomes of a Debugger call (R244, decision D20). -/
inductive DebugOutcome where
  | closed
  | breakpointHit (pc : Word)
  | executed
deriving DecidableEq, Repr

/-- A call the host makes while no driver call is in progress (R312). Construction is `State.construct`; launch-state
setting (R46) is the choice of the State a statement speaks of. -/
inductive HostCall where
  | interpreterReset
  | memoryReset
  | registerReset
  | stackReset
  | loadProgram (bytes : List Byte)
  | loadGlyphTable (bytes : GlyphTable)
  | readByte (addr : Nat)
  | readWord (addr : Nat)
  | writeByte (addr : Nat) (value : Byte)
  | writeWord (addr : Nat) (value : Word)
  /-- `rawView()`, which R312 lists; a write through the view is a `writeByte` (R59). -/
  | rawView
  | push (addr : Word)
  | pop
  | runScheduler
  | setCancelRequested
  | constructDebugger
  | addBreakpoint (addr : Word)
  | removeBreakpoint (addr : Word)
  | clearBreakpoints
  | hasBreakpoint (addr : Word)
  | debuggerStep
  | continueExecution
  | isAtBreakpoint
  | inspectRegister
  | memoryDump (start stop : Nat)
  | setKey (key : Key) (pressed : Bool)
  | getPixel (col row : Nat)
deriving DecidableEq, Repr

/-- What a host call returned. -/
inductive HostReply where
  /-- The call returned and carries no value. -/
  | done
  /-- The explicit "absent" of a component read (R53, R55), or of `getPixel` with no Display. -/
  | absent
  /-- A success flag (R54, R56, R58, R31) or a Boolean answer (R242, R253). -/
  | flag (b : Bool)
  | byte (b : Byte)
  | word (w : Word)
  /-- `pop` on an empty stack (R32). -/
  | popFailed
  /-- `memoryDump` with `end < start` (R255). -/
  | dumpError
  | bytes (bs : List Byte)
  | snapshot (r : Snapshot)
  /-- The outcome of `step()` or `continueExecution()` (R244, R248). -/
  | outcome (o : DebugOutcome)
deriving DecidableEq, Repr

/-- Answers that come from outside the core and are already settled, one list for each kind of question, the next one
first. A question whose list is empty gets a free value (Config.lean). -/
structure Answers where
  /-- Bytes of `draw_byte()` (R153). -/
  random : List Byte
  /-- Collision answers of an oracle Display (R198). -/
  collisions : List Bool
  /-- Answers of `isKeyPressed` (R201, R202). -/
  keysDown : List Bool
  /-- What `waitForKey` says each time the waiting core asks: a key, or none yet (R195, R203). -/
  keys : List (Option Key)
  /-- Answers of `pollAndContinue` (R201). -/
  polls : List Bool
  /-- Whether `cancel_requested` was set before each sampling (R226). -/
  cancels : List Bool
  /-- Seconds between consecutive answers of `now()` (R222); a negative one counts as 0. -/
  elapsed : List Time
deriving DecidableEq, Repr

/-- The machine. -/
structure State where
  /-- V0 to VF (R20). -/
  v : Vector Byte 16
  /-- PC (R23). -/
  pc : Word
  /-- I (R26). -/
  i : Word
  /-- SP (R27, R35). -/
  sp : Byte
  /-- DT, the delay timer (R28). -/
  dt : Byte
  /-- ST, the sound timer (R28). -/
  st : Byte
  /-- `Stack[0..15]` (R30). -/
  stack : Vector Word 16
  /-- Memory (R50). -/
  mem : Memory
  /-- BP, the Debugger's breakpoint set, as a strictly rising list (R38). -/
  bp : List Word
  /-- The Debugger's control state (R40). -/
  control : DebugControl
  /-- The Scheduler's run state (R39). -/
  runState : RunState
  /-- `t_cycle` (R39, R221). -/
  tCycle : Time
  /-- `t_timer` (R39, R221). -/
  tTimer : Time
  /-- The last answer of `now()`: the sample `t` of the iteration in progress (R222, R224). -/
  now : Time
  /-- `cancel_requested` (R226). -/
  cancelRequested : Bool
  /-- The cycle in progress is an `Fx0A` that still waits for a key (R42 d, R195, R203). -/
  waiting : Bool
  /-- The pixels that are on in the reference Display, as `row * DISPLAY_W + col`, strictly rising (R204). -/
  pixels : List Nat
  /-- MODEL'S OWN. The calls on the collaborators so far, the latest first. -/
  calls : List CollabCall
  /-- MODEL'S OWN. Outside answers already settled. -/
  answers : Answers
  /-- MODEL'S OWN. How many free answers have been taken. -/
  draws : Nat
  /-- MODEL'S OWN. Host calls still to be made, the next one first. -/
  hostCalls : List HostCall
  /-- MODEL'S OWN. What the host's calls returned, the latest first. -/
  hostReplies : List HostReply
  /-- The configuration (R41). -/
  config : Config
deriving DecidableEq, Repr

/-- Faults. There are none: "no step of this machine is a fault" (R289 a), "the core raises no synchronous exception"
(R270). Safe: a machine that cannot fault has no fault to hide. -/
inductive Fault where
deriving DecidableEq, Repr

/-- Why a step is given no meaning. -/
inductive Refusal where
  /-- An instruction whose meaning is not modelled yet, rejected in its arm of `exec`. Raised by no arm at present.
  Safe. -/
  | notModelled (mnemonic : String)
  /-- SP is above 16: an ill-formed state, no launch state, unreachable (R27, R47, U19 "refuse"). Raised by `2nnn`,
  `00EE` and the host's `push` and `pop`. Safe. -/
  | illFormedStackPointer
  /-- The Scheduler runs while a Debugger call is in progress: the single-writer precondition is broken (R233, R259,
  R322, U18 "refuse"). Raised by `step`. Safe. -/
  | concurrentDrivers
deriving DecidableEq, Repr

/-- No settled answers: every question gets a free value. -/
def Answers.none : Answers := ⟨[], [], [], [], [], [], []⟩

/-- Constructing an interpreter with the configuration `c`, a Scheduler that has not started and a Debugger that is
halted (R45, R310, R314). -/
def State.construct (c : Config) : State where
  v := Vector.replicate 16 0
  pc := programBase
  i := 0
  sp := 0
  dt := 0
  st := 0
  stack := Vector.replicate 16 0
  mem := []
  bp := []
  control := .halted
  runState := .idle
  tCycle := 0
  tTimer := 0
  now := 0
  cancelRequested := false
  waiting := false
  pixels := []
  calls := []
  answers := Answers.none
  draws := 0
  hostCalls := []
  hostReplies := []
  config := c

/-- The machine right after reset (R45), in the default configuration. -/
def State.reset : State := State.construct defaultConfig

end Sys2Proof.Machine
end

