-- ==== Sys2Proof/Machine/Ops.lean ====
section
/-! DEFINITION. The named operations over memory, registers, the program counter and the stack. Two layers for memory
(spec/20_memory.md, opening paragraph; C7): the component operations report absence and failure, the instruction layer
turns absence into 0 and drops what cannot be written (R61, R62). The machine has no exceptions, so there is no
operation that takes one and none that returns from one (spec/60_exceptions.md R270, R279, R280). -/

namespace Sys2Proof.Machine

/-! ### Memory as data -/

/-- `InRange(a)` (R11): the only check on an address (R52, R69). -/
def inRange (a : Nat) : Bool := decide (a < memSize)

/-- What an unlisted address holds: the reset content, `GLYPH` below 80 and 0 above (R45, R60). -/
def fillByte (g : GlyphTable) (a : Nat) : Byte := if h : a < 80 then g[a] else 0

/-- The listed byte at an address. Addresses rise, so the search ends at the first higher one. -/
def Memory.lookup : Memory → Nat → Option Byte
  | [], _ => none
  | (b, w) :: rest, a => if b = a then some w else if b < a then Memory.lookup rest a else none

/-- The byte at an address. -/
def Memory.get (g : GlyphTable) (m : Memory) (a : Nat) : Byte := (Memory.lookup m a).getD (fillByte g a)

/-- Put a byte at an address and keep the canonical form: an entry equal to the reset content is left out. -/
def Memory.put (g : GlyphTable) : Memory → Nat → Byte → Memory
  | [], a, v => if v = fillByte g a then [] else [(a, v)]
  | (b, w) :: rest, a, v =>
    if b < a then (b, w) :: Memory.put g rest a v
    else if b = a then (if v = fillByte g a then rest else (a, v) :: rest)
    else (if v = fillByte g a then (b, w) :: rest else (a, v) :: (b, w) :: rest)

/-- The canonical form: addresses strictly rising, inside memory, and no entry equal to the reset content. -/
abbrev Memory.wf (g : GlyphTable) (m : Memory) : Prop :=
  m.Pairwise (fun c d => c.1 < d.1) ∧ ∀ c ∈ m, c.1 < memSize ∧ c.2 ≠ fillByte g c.1

/-! ### Memory, component layer (R53 to R60) -/

/-- `readByte(addr)`: absent when out of range (R53). -/
def State.readByte (s : State) (a : Nat) : Option Byte :=
  if inRange a then some (Memory.get s.config.glyph s.mem a) else none

/-- `writeByte(addr, value)`: false and no mutation when out of range (R54). -/
def State.writeByte (s : State) (a : Nat) (v : Byte) : Bool × State :=
  if inRange a then (true, { s with mem := Memory.put s.config.glyph s.mem a v }) else (false, s)

/-- `readWord(addr)`: big-endian, absent if either byte is out of range (R55). -/
def State.readWord (s : State) (a : Nat) : Option Word :=
  match s.readByte a, s.readByte (a + 1) with
  | some hi, some lo => some (wordOfBytes hi lo)
  | _, _ => none

/-- `writeWord(addr, value)`: big-endian, all or nothing (R56). -/
def State.writeWord (s : State) (a : Nat) (w : Word) : Bool × State :=
  if inRange a && inRange (a + 1) then
    (true, ((s.writeByte a (hiByte w)).2.writeByte (a + 1) (loByte w)).2)
  else (false, s)

/-! ### Memory, instruction layer (R11, R61, R62, R63) -/

/-- `MemRead(addr, 1)`: an absent byte reads as 0 (R61). The address is an unbounded natural (R63). -/
def State.memRead (s : State) (a : Nat) : Byte := (s.readByte a).getD 0

/-- `MemWrite(addr, 1, v)`: an out-of-range write is dropped (R62). -/
def State.memWrite (s : State) (a : Nat) (v : Byte) : State := (s.writeByte a v).2

/-- `MemRead(a), MemRead(a + 1), …`: `n` bytes at ascending addresses, each substituted on its own (R61). -/
def State.memReadBytes (s : State) (a : Nat) : Nat → List Byte
  | 0 => []
  | n + 1 => s.memRead a :: s.memReadBytes (a + 1) n

/-- `MemWrite` of a sequence of bytes at ascending addresses, each dropped on its own when out of range (R62). -/
def State.memWriteBytes (s : State) (a : Nat) : List Byte → State
  | [] => s
  | b :: bs => (s.memWrite a b).memWriteBytes (a + 1) bs

/-- `MemRead(addr, 2)`: the fetch's word, big-endian, each byte substituted by 0 on its own (R11, R101). -/
def State.memReadWord (s : State) (a : Nat) : Word := wordOfBytes (s.memRead a) (s.memRead (a + 1))

/-- `loadGlyphTable(bytes)`: 80 bytes at address 0 (R57). -/
def State.loadGlyphTable (s : State) (g : GlyphTable) : State := s.memWriteBytes glyphBase g.toList

/-- `loadProgram(bytes)`: the image at 0x200, or false and no mutation if it is longer than 3584 bytes (R58). -/
def State.loadProgram (s : State) (bytes : List Byte) : Bool × State :=
  if maxProgram < bytes.length then (false, s) else (true, s.memWriteBytes programBase.toNat bytes)

/-- `Memory.reset()`: zero-fill and reload the glyph table, which is memory with nothing listed (R60). -/
def State.memoryReset (s : State) : State := { s with mem := [] }

/-! ### General registers (R20) -/

/-- Read `V[k]`. -/
def State.getV (s : State) (k : Reg) : Byte := s.v[k]

/-- Write `V[k]`. -/
def State.setV (s : State) (k : Reg) (b : Byte) : State := { s with v := s.v.set k b }

/-- `V[0], …, V[x]` in ascending order, the operand of `Fx55` (R83, R175). -/
def State.regsUpTo (s : State) (x : Reg) : List Byte := s.v.toList.take (x.val + 1)

/-- Load `V[0], …, V[x]` from memory at ascending addresses from `a` (R176): every source byte is read before a
register is written (R152). -/
def State.loadRegs (s : State) (x : Reg) (a : Nat) : State :=
  { s with v := Vector.ofFn (fun k : Reg => if k ≤ x then s.memRead (a + k.val) else s.getV k) }

/-- `Register.reset()`: every field 0 except PC, which is 0x200 (R34). -/
def State.registerReset (s : State) : State :=
  { s with v := Vector.replicate 16 0, pc := programBase, i := 0, sp := 0, dt := 0, st := 0 }

/-- The register component as a value (R254). -/
def State.snapshot (s : State) : Snapshot := ⟨s.pc, s.i, s.v, s.sp, s.dt, s.st⟩

/-! ### Special registers (R26, R28) -/

/-- Write I. -/
def State.setI (s : State) (w : Word) : State := { s with i := w }

/-- Write DT. -/
def State.setDT (s : State) (b : Byte) : State := { s with dt := b }

/-- Write ST. -/
def State.setST (s : State) (b : Byte) : State := { s with st := b }

/-! ### Program counter (R24, R104, R105): addition is modulo 65536 -/

/-- Advance class DEFAULT. -/
def State.advance (s : State) : State := { s with pc := s.pc + 2 }

/-- Advance class SKIP. -/
def State.skipIf (s : State) (c : Bool) : State := { s with pc := s.pc + (if c then 4 else 2) }

/-- Advance class DIRECT. -/
def State.jump (s : State) (target : Word) : State := { s with pc := target }

/-- Advance class RETURN: the popped value (or 0) and then the default advance. -/
def State.returnTo (s : State) (t : Word) : State := { s with pc := t + 2 }

/-! ### The return stack (R30 to R33, R35): the SP cell is the one in Register -/

/-- SP is in its legal range 0 to 16 (R27, R47). -/
def State.stackOk (s : State) : Bool := decide (s.sp.toNat ≤ stackDepth)

/-- Read `Stack[k]`; there is no slot beyond 15. -/
def State.slot (s : State) (k : Nat) : Word := if h : k < 16 then s.stack[k] else 0

/-- Write `Stack[k]`; there is no slot beyond 15. -/
def State.setSlot (s : State) (k : Nat) (w : Word) : State :=
  if h : k < 16 then { s with stack := s.stack.set k w } else s

/-- `push(addr)`: fails without modifying state when all 16 slots are in use (R31). -/
def State.push (s : State) (addr : Word) : Bool × State :=
  if s.sp.toNat < stackDepth then (true, { s.setSlot s.sp.toNat addr with sp := s.sp + 1 }) else (false, s)

/-- `pop()`: fails without modifying state when SP is 0; the popped slot keeps its value (R32). -/
def State.pop (s : State) : Option Word × State :=
  if s.sp = 0 then (none, s) else (some (s.slot (s.sp.toNat - 1)), { s with sp := s.sp - 1 })

/-- `Stack.reset()`: SP 0 and every slot 0 (R33). -/
def State.stackReset (s : State) : State := { s with sp := 0, stack := Vector.replicate 16 0 }

/-- `Interpreter.reset()`: the three component resets; nothing of the drivers, the collaborators or the configuration
is touched (R311, R313). -/
def State.interpreterReset (s : State) : State := s.memoryReset.registerReset.stackReset

end Sys2Proof.Machine
end

