-- ==== Sys2Proof/Machine/Operands.lean ====
section
/-! DEFINITION. The operand forms: register, immediate, and memory at I plus an offset (spec/30_encoding.md R83,
spec/44_index_memory.md R172). Every extension is a zero extension (R10, R11, R83). -/

namespace Sys2Proof.Machine

/-- `zext_16(nnn)`: a 12-bit immediate as an address or an index value (R83). -/
def immAddr (nnn : Addr12) : Word := nnn.setWidth 16

/-- `zext_16(b)`: a byte as a 16-bit value. -/
def byteToWord (b : Byte) : Word := b.setWidth 16

/-- `zext_8(k)`: a key index as a register value (R195). -/
def keyToByte (k : Key) : Byte := BitVec.ofNat 8 k.val

/-- The effective address `I + k`, an unbounded natural that never wraps (R63, R172). -/
def State.effAddr (s : State) (k : Nat) : Nat := s.i.toNat + k

/-- The base of the memory forms, `I + 0`. -/
def State.baseAddr (s : State) : Nat := s.effAddr 0

/-- The target of `Bnnn`: `nnn + V0`, not reduced to 12 bits (R123, decision D27). -/
def State.offsetTarget (s : State) (nnn : Addr12) : Word := immAddr nnn + byteToWord (s.getV regV0)

/-- The glyph address of `Fx29`: the whole byte times 5 (R173). -/
def glyphAddr (b : Byte) : Word := BitVec.ofNat 16 (b.toNat * glyphSize)

/-- The three decimal digits of a byte: hundreds, tens, ones, one byte each (R174). -/
def bcdDigits (b : Byte) : List Byte :=
  [BitVec.ofNat 8 (b.toNat / 100), BitVec.ofNat 8 (b.toNat / 10 % 10), BitVec.ofNat 8 (b.toNat % 10)]

end Sys2Proof.Machine
end

