-- ==== Sys2Proof/Machine/Collaborators.lean ====
section
/-! DEFINITION. What lies outside the core and answers its calls: the random source (spec/43_alu.md R153), the Display
and Input contracts (spec/45_timer_key_display.md R200 to R204), the time source and the cancellation signal
(spec/47_scheduler.md R222, R225, R226). An answer is the next settled one of `State.answers` if there is one, else a
free value of Config.lean. Every call is recorded in `State.calls` with its arguments. -/

namespace Sys2Proof.Machine

/-- Record a call on a collaborator. -/
def State.record (s : State) (c : CollabCall) : State := { s with calls := c :: s.calls }

/-- One more free answer has been taken. -/
def State.countDraw (s : State) : State := { s with draws := s.draws + 1 }

/-! ### The answers -/

/-- `draw_byte()`: any byte (R153). -/
def State.drawByte (s : State) : Byte × State :=
  match s.answers.random with
  | b :: rest => (b, { s with answers := { s.answers with random := rest } })
  | [] => (Config.freeByte s.draws, s.countDraw)

/-- An oracle Display's collision answer: either value (R198). -/
def State.answerCollision (s : State) : Bool × State :=
  match s.answers.collisions with
  | b :: rest => (b, { s with answers := { s.answers with collisions := rest } })
  | [] => (Config.freeCollision s.draws, s.countDraw)

/-- The Input's answer to `isKeyPressed(key)`: either value, for every 8-bit index (R201, R202). -/
def State.answerKeyDown (s : State) (key : Byte) : Bool × State :=
  match s.answers.keysDown with
  | b :: rest => (b, { s with answers := { s.answers with keysDown := rest } })
  | [] => (Config.freeKeyDown s.draws key, s.countDraw)

/-- What `waitForKey` says now: a key, or that none has arrived (R201, R203). -/
def State.answerKey (s : State) : Option Key × State :=
  match s.answers.keys with
  | k :: rest => (k, { s with answers := { s.answers with keys := rest } })
  | [] => (Config.freeKey s.draws, s.countDraw)

/-- The Input's answer to `pollAndContinue` (R201). -/
def State.answerPoll (s : State) : Bool × State :=
  match s.answers.polls with
  | b :: rest => (b, { s with answers := { s.answers with polls := rest } })
  | [] => (Config.freePoll s.draws, s.countDraw)

/-- Whether the host has set `cancel_requested` since it was last sampled (R226). -/
def State.answerCancel (s : State) : Bool × State :=
  match s.answers.cancels with
  | b :: rest => (b, { s with answers := { s.answers with cancels := rest } })
  | [] => (Config.freeCancel s.draws, s.countDraw)

/-- The time that has passed since the last answer of `now()`. -/
def State.answerElapsed (s : State) : Time × State :=
  match s.answers.elapsed with
  | t :: rest => (t, { s with answers := { s.answers with elapsed := rest } })
  | [] => (Config.freeElapsed s.draws, s.countDraw)

/-- `now()`: answers never decrease (R222). The answer is kept in `State.now`. -/
def State.sampleNow (s : State) : State :=
  let (e, s') := s.answerElapsed
  { s' with now := s.now + max 0 e }

/-! ### The reference Display (R204) -/

/-- Turn a pixel from off to on or from on to off, in the strictly rising list of the pixels that are on. -/
def togglePixel (p : Nat) : List Nat → List Nat
  | [] => [p]
  | q :: rest => if q < p then q :: togglePixel p rest else if q = p then rest else p :: q :: rest

/-- The pixel at a column and a row, each wrapped on its own. -/
def pixelIndex (c : Config) (col row : Nat) : Nat := (row % c.displayH) * c.displayW + col % c.displayW

/-- XOR one pixel; a pixel that was on is a collision. -/
def drawPixel (c : Config) (col row : Nat) (acc : Bool × List Nat) : Bool × List Nat :=
  (acc.1 || acc.2.contains (pixelIndex c col row), togglePixel (pixelIndex c col row) acc.2)

/-- Draw the pixels `j, j + 1, …` of one sprite row, given the bits from the `j`-th on; `j = 0` is the leftmost. -/
def drawBits (c : Config) (x0 row : Nat) : Nat → List Bool → Bool × List Nat → Bool × List Nat
  | _, [], acc => acc
  | j, b :: bits, acc => drawBits c x0 row (j + 1) bits (if b then drawPixel c (x0 + j) row acc else acc)

/-- The bits of a sprite row, the most significant first. -/
def rowBits (b : Byte) : List Bool :=
  [b.getLsbD 7, b.getLsbD 6, b.getLsbD 5, b.getLsbD 4, b.getLsbD 3, b.getLsbD 2, b.getLsbD 1, b.getLsbD 0]

/-- Draw sprite rows downwards from `row`. -/
def drawRows (c : Config) (x0 : Nat) : Nat → List Byte → Bool × List Nat → Bool × List Nat
  | _, [], acc => acc
  | row, b :: rows, acc => drawRows c x0 (row + 1) rows (drawBits c x0 row 0 (rowBits b) acc)

/-! ### The Display contract (R200) -/

/-- `Display.clear()`; nothing when no Display is attached (R196). -/
def State.displayClear (s : State) : State :=
  match s.config.display with
  | .absent => s
  | .oracle => s.record .clear
  | .reference => { s.record .clear with pixels := [] }

/-- `Display.drawSprite(px, py, rows, rowCount) -> collision` on an attached Display. With no Display the instruction
does not call it (R197). -/
def State.displayDraw (s : State) (px py : Byte) (rows : List Byte) (rowCount : Nibble) : Bool × State :=
  match s.config.display with
  | .absent => (false, s)
  | .oracle =>
    let (c, s') := s.answerCollision
    (c, s'.record (.drawSprite px py rows rowCount c))
  | .reference =>
    let (c, ps) := drawRows s.config px.toNat py.toNat rows (false, s.pixels)
    (c, { s.record (.drawSprite px py rows rowCount c) with pixels := ps })

/-- `Display.render()`: no effect on the core; skipped when no Display is attached (R228, R244). -/
def State.displayRender (s : State) : State :=
  match s.config.display with
  | .absent => s
  | .oracle => s.record .render
  | .reference => s.record .render

/-- `Display.getPixel(col, row)`, a host-side inspection (R200); absent with no Display. The spec states no answer for
a position outside the display (log 12): a free value. -/
def State.displayPixel (s : State) (col row : Nat) : Option Bool × State :=
  match s.config.display with
  | .absent => (none, s)
  | .oracle => (some (Config.freePixel s.draws), s.countDraw)
  | .reference =>
    if col < s.config.displayW ∧ row < s.config.displayH then
      (some (s.pixels.contains (pixelIndex s.config col row)), s)
    else (some (Config.freePixel s.draws), s.countDraw)

/-! ### The Input contract (R201) and the poll (R225) -/

/-- The key test of `Ex9E` and `ExA1`: the Input's answer, or "not pressed" when no Input is attached (R193, R194). -/
def State.keyPressed (s : State) (key : Byte) : Bool × State :=
  if s.config.hasInput then
    let (p, s') := s.answerKeyDown key
    (p, s'.record (.isKeyPressed key p))
  else (false, s)

/-- The cancellation request as it stands now: set by the host at any time, sampled here, never cleared (R226). -/
def State.sampleCancel (s : State) : State :=
  if s.cancelRequested then s
  else
    let (c, s') := s.answerCancel
    { s' with cancelRequested := c }

/-- `Input.pollAndContinue()`; an absent Input counts as still open (R225, decision D18). -/
def State.pollInput (s : State) : Bool × State :=
  if s.config.hasInput then
    let (p, s') := s.answerPoll
    (p, s'.record (.pollAndContinue p))
  else (true, s)

/-- `poll_open()`: the cancellation request first, and only if there is none the Input (R225, R226, R278 c). -/
def State.pollOpen (s : State) : Bool × State :=
  if s.sampleCancel.cancelRequested then (false, s.sampleCancel) else s.sampleCancel.pollInput

end Sys2Proof.Machine
end

