-- ==== Sys2Proof/Machine/Flags.lean ====
section
/-! DEFINITION. Every result and flag computation of the arithmetic instructions (spec/43_alu.md R146 to R150, R154),
and the one place where the result and the flag are written (R155). Operands are taken to naturals, the exact result
is formed, and it is reduced at the end. -/

namespace Sys2Proof.Machine

/-- A flag as the value VF receives: 0 or 1 (R21). -/
def flagByte (f : Bool) : Byte := if f then 1 else 0

/-- `(a + b) mod 256` (R141, R146). -/
def addByte (a b : Byte) : Byte := BitVec.ofNat 8 (a.toNat + b.toNat)

/-- Carry: the sum before truncation exceeds 255 (R146). -/
def carryFlag (a b : Byte) : Bool := decide (255 < a.toNat + b.toNat)

/-- `(a + 256 − b) mod 256` (R147, R149). -/
def subByte (a b : Byte) : Byte := BitVec.ofNat 8 (a.toNat + 256 - b.toNat)

/-- The subtract flag: `a > b`, strictly (R147, R149, W1). -/
def greaterFlag (a b : Byte) : Bool := decide (b.toNat < a.toNat)

/-- `a >> 1`, logical (R148). -/
def shrByte (a : Byte) : Byte := BitVec.ofNat 8 (a.toNat / 2)

/-- Bit 0 before the shift (R148). -/
def lowBitFlag (a : Byte) : Bool := decide (a.toNat % 2 = 1)

/-- `(a << 1) mod 256` (R150). -/
def shlByte (a : Byte) : Byte := BitVec.ofNat 8 (a.toNat * 2)

/-- Bit 7 before the shift (R150). -/
def highBitFlag (a : Byte) : Bool := decide (128 ≤ a.toNat)

/-- `write_result_and_flag(x, r, f)`: the two writes, in the order `VF_ORDER` fixes (R155). -/
def State.writeResultAndFlag (s : State) (x : Reg) (r : Byte) (f : Bool) : State :=
  match s.config.vfOrder with
  | .flagLast => (s.setV x r).setV regVF (flagByte f)
  | .resultLast => (s.setV regVF (flagByte f)).setV x r

end Sys2Proof.Machine
end

