-- ==== Sys2Proof/Machine/Alu.lean ====
section
/-! DEFINITION. Register load, arithmetic, logic, shift and random (spec/43_alu.md): `6xnn`, `7xnn`, `8xy0` to `8xy7`,
`8xyE`, `Cxnn`. All operands are read before anything is written (R152); all are in advance class DEFAULT (R105). -/

namespace Sys2Proof.Machine

/-- `6xnn`, load immediate (R140). -/
def exec6xnn (x : Reg) (nn : Byte) (s : State) : Host.Outcome State Fault Refusal :=
  .next (s.setV x nn).advance

/-- `7xnn`, add immediate, wrapping, no flag (R141). -/
def exec7xnn (x : Reg) (nn : Byte) (s : State) : Host.Outcome State Fault Refusal :=
  .next (s.setV x (addByte (s.getV x) nn)).advance

/-- `8xy0`, register copy (R142). -/
def exec8xy0 (x y : Reg) (s : State) : Host.Outcome State Fault Refusal :=
  .next (s.setV x (s.getV y)).advance

/-- `8xy1`, OR; VF is left as it was (R143). -/
def exec8xy1 (x y : Reg) (s : State) : Host.Outcome State Fault Refusal :=
  .next (s.setV x (s.getV x ||| s.getV y)).advance

/-- `8xy2`, AND; VF is left as it was (R144). -/
def exec8xy2 (x y : Reg) (s : State) : Host.Outcome State Fault Refusal :=
  .next (s.setV x (s.getV x &&& s.getV y)).advance

/-- `8xy3`, exclusive OR; VF is left as it was (R145). -/
def exec8xy3 (x y : Reg) (s : State) : Host.Outcome State Fault Refusal :=
  .next (s.setV x (s.getV x ^^^ s.getV y)).advance

/-- `8xy4`, add with carry flag (R146). -/
def exec8xy4 (x y : Reg) (s : State) : Host.Outcome State Fault Refusal :=
  .next (s.writeResultAndFlag x (addByte (s.getV x) (s.getV y)) (carryFlag (s.getV x) (s.getV y))).advance

/-- `8xy5`, subtract, flag `V[x] > V[y]` (R147). -/
def exec8xy5 (x y : Reg) (s : State) : Host.Outcome State Fault Refusal :=
  .next (s.writeResultAndFlag x (subByte (s.getV x) (s.getV y)) (greaterFlag (s.getV x) (s.getV y))).advance

/-- `8xy6`, shift right by one; `y` is ignored (R148). -/
def exec8xy6 (x _y : Reg) (s : State) : Host.Outcome State Fault Refusal :=
  .next (s.writeResultAndFlag x (shrByte (s.getV x)) (lowBitFlag (s.getV x))).advance

/-- `8xy7`, reverse subtract, flag `V[y] > V[x]` (R149). -/
def exec8xy7 (x y : Reg) (s : State) : Host.Outcome State Fault Refusal :=
  .next (s.writeResultAndFlag x (subByte (s.getV y) (s.getV x)) (greaterFlag (s.getV y) (s.getV x))).advance

/-- `8xyE`, shift left by one; `y` is ignored (R150). -/
def exec8xyE (x _y : Reg) (s : State) : Host.Outcome State Fault Refusal :=
  .next (s.writeResultAndFlag x (shlByte (s.getV x)) (highBitFlag (s.getV x))).advance

/-- `Cxnn`, a random byte AND `nn` (R151, R153). -/
def execCxnn (x : Reg) (nn : Byte) (s : State) : Host.Outcome State Fault Refusal :=
  let (rnd, s') := s.drawByte
  .next (s'.setV x (rnd &&& nn)).advance

end Sys2Proof.Machine
end

