-- ==== Sys2Proof/Machine/Flow.lean ====
section
/-! DEFINITION. Control transfer (spec/41_flow.md): `00EE`, `1nnn`, `2nnn`, `Bnnn`. During execution PC is the address
of the instruction itself (spec/10_state.md R23). -/

namespace Sys2Proof.Machine

/-- `00EE`, return: the popped value, or 0 on an empty stack, then the default advance (R120). SP above 16 is an
ill-formed state and is refused (R27, U19). -/
def exec00EE (s : State) : Host.Outcome State Fault Refusal :=
  if s.stackOk then
    let (t, s') := s.pop
    .next (s'.returnTo (t.getD 0))
  else .refused .illFormedStackPointer

/-- `1nnn`, jump (R121). -/
def exec1nnn (nnn : Addr12) (s : State) : Host.Outcome State Fault Refusal :=
  .next (s.jump (immAddr nnn))

/-- `2nnn`, call: push the call's own address, ignore a full stack, jump (R122). SP above 16 is refused (R27, U19). -/
def exec2nnn (nnn : Addr12) (s : State) : Host.Outcome State Fault Refusal :=
  if s.stackOk then .next ((s.push s.pc).2.jump (immAddr nnn)) else .refused .illFormedStackPointer

/-- `Bnnn`, jump with offset V0 (R123). -/
def execBnnn (nnn : Addr12) (s : State) : Host.Outcome State Fault Refusal :=
  .next (s.jump (s.offsetTarget nnn))

end Sys2Proof.Machine
end

