-- ==== Sys2Proof/Machine/IndexMemory.lean ====
section
/-! DEFINITION. Index register and memory transfer (spec/44_index_memory.md): `Annn`, `Fx1E`, `Fx29`, `Fx33`, `Fx55`,
`Fx65`. I is never changed by a transfer (R172, R175, R176); each byte outside memory degrades on its own (R61, R62). -/

namespace Sys2Proof.Machine

/-- `Annn`, load I (R170). -/
def execAnnn (nnn : Addr12) (s : State) : Host.Outcome State Fault Refusal :=
  .next (s.setI (immAddr nnn)).advance

/-- `Fx1E`, add `V[x]` to I modulo 65536, no flag (R171). -/
def execFx1E (x : Reg) (s : State) : Host.Outcome State Fault Refusal :=
  .next (s.setI (s.i + byteToWord (s.getV x))).advance

/-- `Fx29`, `I <- V[x] * 5` (R173). -/
def execFx29 (x : Reg) (s : State) : Host.Outcome State Fault Refusal :=
  .next (s.setI (glyphAddr (s.getV x))).advance

/-- `Fx33`, store the decimal digits of `V[x]` at I, I + 1, I + 2 (R174). -/
def execFx33 (x : Reg) (s : State) : Host.Outcome State Fault Refusal :=
  .next (s.memWriteBytes s.baseAddr (bcdDigits (s.getV x))).advance

/-- `Fx55`, store `V[0]` to `V[x]` at I, …, I + x (R175). -/
def execFx55 (x : Reg) (s : State) : Host.Outcome State Fault Refusal :=
  .next (s.memWriteBytes s.baseAddr (s.regsUpTo x)).advance

/-- `Fx65`, load `V[0]` to `V[x]` from I, …, I + x (R176). -/
def execFx65 (x : Reg) (s : State) : Host.Outcome State Fault Refusal :=
  .next (s.loadRegs x s.baseAddr).advance

end Sys2Proof.Machine
end

