-- ==== Sys2Proof/Machine/Skip.lean ====
section
/-! DEFINITION. Conditional skips on registers (spec/42_skip.md): `3xnn`, `4xnn`, `5xy0`, `9xy0`. They write only PC
(R134). -/

namespace Sys2Proof.Machine

/-- `3xnn`, skip if `V[x] == nn` (R130). -/
def exec3xnn (x : Reg) (nn : Byte) (s : State) : Host.Outcome State Fault Refusal :=
  .next (s.skipIf (s.getV x == nn))

/-- `4xnn`, skip if `V[x] != nn` (R131). -/
def exec4xnn (x : Reg) (nn : Byte) (s : State) : Host.Outcome State Fault Refusal :=
  .next (s.skipIf (s.getV x != nn))

/-- `5xy0`, skip if `V[x] == V[y]`, whatever the low nibble (R132, R84). -/
def exec5xy0 (x y : Reg) (_n : Nibble) (s : State) : Host.Outcome State Fault Refusal :=
  .next (s.skipIf (s.getV x == s.getV y))

/-- `9xy0`, skip if `V[x] != V[y]`, whatever the low nibble (R133, R84). -/
def exec9xy0 (x y : Reg) (_n : Nibble) (s : State) : Host.Outcome State Fault Refusal :=
  .next (s.skipIf (s.getV x != s.getV y))

end Sys2Proof.Machine
end

