-- ==== Sys2Proof/Machine/TimerKeyDisplay.lean ====
section
/-! DEFINITION. Timer register, keypad and display instructions (spec/45_timer_key_display.md): `Fx07`, `Fx15`,
`Fx18`, `Ex9E`, `ExA1`, `Fx0A`, `00E0`, `Dxyn`. Without the collaborator an instruction needs, it takes the fixed
fallback of R199. -/

namespace Sys2Proof.Machine

/-- `Fx07`, `V[x] <- DT` (R190). -/
def execFx07 (x : Reg) (s : State) : Host.Outcome State Fault Refusal :=
  .next (s.setV x s.dt).advance

/-- `Fx15`, `DT <- V[x]` (R191). -/
def execFx15 (x : Reg) (s : State) : Host.Outcome State Fault Refusal :=
  .next (s.setDT (s.getV x)).advance

/-- `Fx18`, `ST <- V[x]` (R192). -/
def execFx18 (x : Reg) (s : State) : Host.Outcome State Fault Refusal :=
  .next (s.setST (s.getV x)).advance

/-- `Ex9E`, skip if the key `V[x]` is pressed (R193, R202). -/
def execEx9E (x : Reg) (s : State) : Host.Outcome State Fault Refusal :=
  let (p, s') := s.keyPressed (s.getV x)
  .next (s'.skipIf p)

/-- `ExA1`, skip if the key `V[x]` is not pressed (R194, R202). -/
def execExA1 (x : Reg) (s : State) : Host.Outcome State Fault Refusal :=
  let (p, s') := s.keyPressed (s.getV x)
  .next (s'.skipIf (!p))

/-- Complete an `Fx0A` with the key value `b`: the wait, if there was one, is over. -/
def State.finishKeyWait (s : State) (x : Reg) (b : Byte) : State :=
  { s.setV x b with waiting := false }.advance

/-- The effect of `Fx0A` with an Input attached: ask, and either complete with the key or go on waiting with
everything else as it was (R195, R203). -/
def State.askForKey (s : State) (x : Reg) : State :=
  match s.answerKey with
  | (some k, s') => (s'.record (.waitForKey k)).finishKeyWait x (keyToByte k)
  | (none, s') => { s' with waiting := true }

/-- `Fx0A`, wait for a key (R195). A step in which no key has arrived is a hold: the cycle is not complete, PC still
addresses the instruction, and the next step asks again (R42 d, R109, R203). -/
def execFx0A (x : Reg) (s : State) : Host.Outcome State Fault Refusal :=
  .next (if s.config.hasInput then s.askForKey x else s.finishKeyWait x 0)

/-- `00E0`, clear the display (R196). -/
def exec00E0 (s : State) : Host.Outcome State Fault Refusal :=
  .next s.displayClear.advance

/-- The effect of `Dxyn` with a Display attached: fetch `n` sprite bytes at I, draw, VF receives the collision (R197,
R198). -/
def State.drawSprite (s : State) (x y : Reg) (n : Nibble) : State :=
  let (c, s') := s.displayDraw (s.getV x) (s.getV y) (s.memReadBytes s.baseAddr n.toNat) n
  s'.setV regVF (flagByte c)

/-- `Dxyn`, draw sprite; without a Display only PC changes (R197). -/
def execDxyn (x y : Reg) (n : Nibble) (s : State) : Host.Outcome State Fault Refusal :=
  .next (if s.config.hasDisplay then (s.drawSprite x y n).advance else s.advance)

end Sys2Proof.Machine
end

