-- ==== Sys2Proof/Machine/Unrecognized.lean ====
section
/-! DEFINITION. The meaning of the words that select no row of the opcode map (spec/40_cycle.md R106). -/

namespace Sys2Proof.Machine

/-- `UNRECOGNIZED`: "no-op; falls through to default PC advance" (R87, R106). -/
def execUnrecognized (_op : Word) (s : State) : Host.Outcome State Fault Refusal :=
  .next s.advance

end Sys2Proof.Machine
end

