-- ==== Sys2Proof/Machine/Cycle.lean ====
section
/-! DEFINITION. The Interpreter's step `cycle()`: fetch, decode, execute, PC advance (spec/40_cycle.md R100 to R105).
Only a driver invokes it (R100): an iteration of the Scheduler or an attempt of the Debugger. -/

namespace Sys2Proof.Machine

/-- Fetch: the 16-bit opcode at PC, big-endian, a byte outside memory read as 0 (R101). -/
def State.fetch (s : State) : Word := s.memReadWord s.pc.toNat

/-- Fetch and decode (R101, R102). -/
def State.fetchInstr (s : State) : Instr := decode s.fetch

/-- `cycle()`: exactly one instruction; its meaning includes the PC advance (R100, R103, R104). It ticks no timer,
renders nothing and looks at no breakpoint (R110). -/
def cycle (s : State) : Host.Outcome State Fault Refusal := exec s.fetchInstr s

end Sys2Proof.Machine
end

