-- ==== Sys2Proof/Machine/Timer.lean ====
section
/-! DEFINITION. The timer decrement unit (spec/46_timer_tick.md R210 to R214). -/

namespace Sys2Proof.Machine

/-- One timer, one tick: down by 1, never below 0 (R210, R211). -/
def decrementTimer (t : Byte) : Byte := if t = 0 then 0 else t - 1

/-- `timerTick()`: each timer on its own, and nothing else (R210). -/
def State.timerTick (s : State) : State := { s with dt := decrementTimer s.dt, st := decrementTimer s.st }

end Sys2Proof.Machine
end

