-- ==== Sys2Proof/Machine/Debugger.lean ====
section
/-! DEFINITION. The Debugger (spec/48_debugger.md): the breakpoint set, and one attempt of `step()` or
`continueExecution()`. One step of the machine is one attempt; an attempt whose cycle is a waiting `Fx0A` takes
further steps until the key arrives (R203, R247). -/

namespace Sys2Proof.Machine

/-- Add an address to the breakpoint set; a member again changes nothing (R242). -/
def insertBreakpoint (a : Word) : List Word → List Word
  | [] => [a]
  | b :: rest => if b < a then b :: insertBreakpoint a rest else if b = a then b :: rest else a :: b :: rest

/-- Remove an address from the breakpoint set; a non-member changes nothing (R242). -/
def eraseBreakpoint (a : Word) (bp : List Word) : List Word := bp.filter (fun b => b != a)

/-- The breakpoint test `PC ∈ BP`, on the full 16-bit PC (R243). -/
def State.atBreakpoint (s : State) : Bool := s.bp.contains s.pc

/-- A Debugger call returns its outcome and the control state is `Halted` again (R241, R244, R248). -/
def State.endDebug (s : State) (o : DebugOutcome) : State :=
  { s with control := .halted, hostReplies := .outcome o :: s.hostReplies }

/-- After an executed instruction: one timer tick, one render; `step()` returns `Executed`, `continueExecution()` goes
on (R244, R248). -/
def State.finishAttempt (s : State) : State :=
  let s' := s.timerTick.displayRender
  match s'.control with
  | .continuing => s'
  | .stepping => s'.endDebug .executed
  | .halted => s'

/-- Steps 3 to 5 of an attempt: the cycle, and what follows it once it is complete (R244, R247, R248). -/
def State.attemptBody (s : State) : Host.Outcome State Fault Refusal :=
  match cycle s with
  | .next s' => .next (if s'.waiting then s' else s'.finishAttempt)
  | .fault r => .fault r
  | .refused r => .refused r

/-- One attempt: poll, then the breakpoint test, then the instruction (R244, R245, R248). -/
def debuggerStep (s : State) : Host.Outcome State Fault Refusal :=
  if s.waiting then s.attemptBody
  else
    match s.pollOpen with
    | (true, s') => if s'.atBreakpoint then .next (s'.endDebug (.breakpointHit s'.pc)) else s'.attemptBody
    | (false, s') => .next (s'.endDebug .closed)

/-- `memoryDump(start, end)`: the bytes of the inclusive range, absent ones as 0; an error if `end < start` (R255). -/
def State.memoryDump (s : State) (start stop : Nat) : HostReply :=
  if stop < start then .dumpError else .bytes (s.memReadBytes start (stop - start + 1))

/-! ### A word placed where the next attempt fetches (log 1) -/

/-- PC at a place where both bytes of a word lie in memory: where it is, if it can, else 0x200. -/
def State.fetchablePc (s : State) : State :=
  if s.pc.toNat + 1 < memSize then s else { s with pc := programBase }

/-- Settle the next poll as open: no cancellation request, and an attached Input that answers "open" (R225). -/
def State.settleOpenPoll (s : State) : State :=
  { s with
    cancelRequested := false
    answers := { s.answers with
      cancels := false :: s.answers.cancels
      polls := if s.config.hasInput then true :: s.answers.polls else s.answers.polls } }

/-- A `continueExecution()` call is in progress, its next poll is open, and no breakpoint stands at PC, so the next
step of the machine is an attempt that executes the instruction at PC (R248). A Scheduler that ran has stopped. -/
def State.beginAttempt (s : State) : State :=
  { s.settleOpenPoll with
    control := .continuing
    runState := if s.runState = .running then .stopped else s.runState
    waiting := false
    bp := eraseBreakpoint s.pc s.bp }

/-- Store the opcode-table word `w` of `nbits` bits where the next cycle fetches its instruction, high-order byte
first (R64), with a driver about to run that cycle: only a driver does (R100). -/
def State.placeFetchWord (s : State) (nbits w : Nat) : State :=
  let s' := s.fetchablePc.beginAttempt
  s'.memWriteBytes s'.pc.toNat (bytesOfWord (tableWord nbits w))

end Sys2Proof.Machine
end

