-- ==== Sys2Proof/Machine/Scheduler.lean ====
section
/-! DEFINITION. The Scheduler (spec/47_scheduler.md): entry, and one iteration of the run loop. One step of the
machine is one iteration; an iteration whose cycle is a waiting `Fx0A` takes further steps until the key arrives, with
the time sample it began with (R203, R230). -/

namespace Sys2Proof.Machine

/-- Entry of `run()`: both clocks start at the entry time (R223). -/
def State.enterRun (s : State) : State :=
  let s' := s.sampleNow
  { s' with tCycle := s'.now, tTimer := s'.now, runState := .running }

/-- Step 3's test: an instruction is due (R224). -/
def State.cycleDue (s : State) : Bool := decide (cyclePeriod ≤ s.now - s.tCycle)

/-- Step 4's test: a timer tick is due (R224). -/
def State.tickDue (s : State) : Bool := decide (timerPeriod ≤ s.now - s.tTimer)

/-- Steps 4 to 6: the tick if it is due, the render always, the yield without effect (R224, R228, R229). -/
def State.finishIteration (s : State) : State :=
  (if s.tickDue then { s.timerTick with tTimer := s.now } else s).displayRender

/-- What follows a completed or suspended cycle in step 3: the instruction clock is reset to this iteration's sample
once the cycle is complete (R224, R230). -/
def State.afterSchedulerCycle (s : State) : State :=
  if s.waiting then s else { s with tCycle := s.now }.finishIteration

/-- Step 3 onwards: at most one instruction, then steps 4 to 6 (R224). -/
def State.iterationBody (s : State) : Host.Outcome State Fault Refusal :=
  if s.cycleDue then
    match cycle s with
    | .next s' => .next s'.afterSchedulerCycle
    | .fault r => .fault r
    | .refused r => .refused r
  else .next s.finishIteration

/-- The loop returns: run state `Stopped`, and `run()` gives the host its return (R226). -/
def State.stopRun (s : State) : State :=
  { s with runState := .stopped, hostReplies := .done :: s.hostReplies }

/-- One step of the running Scheduler: an iteration, or the continuation of one whose cycle waits for a key (R224,
R230). -/
def schedulerStep (s : State) : Host.Outcome State Fault Refusal :=
  if s.waiting then s.iterationBody
  else
    match s.pollOpen with
    | (true, s') => s'.sampleNow.iterationBody
    | (false, s') => .next s'.stopRun

end Sys2Proof.Machine
end

