-- ==== Sys2Proof/Machine/HostOps.lean ====
section
/-! DEFINITION. The host's calls (spec/70_reset_and_hazards.md R312), each one step of the machine, made only while no
driver call is in progress (R44, R322). What a call returns is put into `State.hostReplies`. -/

namespace Sys2Proof.Machine

/-- A host call returns. -/
def State.reply (s : State) (r : HostReply) : State := { s with hostReplies := r :: s.hostReplies }

/-- An optional byte as a reply: the byte, or "absent" (R53). -/
def byteReply : Option Byte → HostReply
  | some b => .byte b
  | none => .absent

/-- An optional word as a reply: the word, or "absent" (R55). -/
def wordReply : Option Word → HostReply
  | some w => .word w
  | none => .absent

/-- An optional Boolean as a reply. -/
def flagReply : Option Bool → HostReply
  | some b => .flag b
  | none => .absent

/-- `rawView()`: the 4096 bytes as one contiguous run (R59). -/
def State.rawView (s : State) : HostReply := .bytes (s.memReadBytes 0 memSize)

/-- The component operation `push` called by the host (R31, R312); refused on an ill-formed SP (U19). -/
def hostPush (a : Word) (s : State) : Host.Outcome State Fault Refusal :=
  if s.stackOk then
    let (ok, s') := s.push a
    .next (s'.reply (.flag ok))
  else .refused .illFormedStackPointer

/-- The component operation `pop` called by the host (R32, R312); refused on an ill-formed SP (U19). -/
def hostPop (s : State) : Host.Outcome State Fault Refusal :=
  if s.stackOk then
    let (t, s') := s.pop
    .next (s'.reply (match t with | some w => .word w | none => .popFailed))
  else .refused .illFormedStackPointer

/-- One host call, already taken off `State.hostCalls`. -/
def hostCall (c : HostCall) (s : State) : Host.Outcome State Fault Refusal :=
  match c with
  | .interpreterReset => .next (s.interpreterReset.reply .done)
  | .memoryReset => .next (s.memoryReset.reply .done)
  | .registerReset => .next (s.registerReset.reply .done)
  | .stackReset => .next (s.stackReset.reply .done)
  | .loadProgram bytes => .next ((s.loadProgram bytes).2.reply (.flag (s.loadProgram bytes).1))
  | .loadGlyphTable g => .next ((s.loadGlyphTable g).reply .done)
  | .readByte a => .next (s.reply (byteReply (s.readByte a)))
  | .readWord a => .next (s.reply (wordReply (s.readWord a)))
  | .writeByte a b => .next ((s.writeByte a b).2.reply (.flag (s.writeByte a b).1))
  | .writeWord a w => .next ((s.writeWord a w).2.reply (.flag (s.writeWord a w).1))
  | .rawView => .next (s.reply s.rawView)
  | .push a => hostPush a s
  | .pop => hostPop s
  | .runScheduler => .next s.enterRun
  | .setCancelRequested => .next ({ s with cancelRequested := true }.reply .done)
  | .constructDebugger => .next ({ s with bp := [], control := .halted }.reply .done)
  | .addBreakpoint a => .next ({ s with bp := insertBreakpoint a s.bp }.reply .done)
  | .removeBreakpoint a => .next ({ s with bp := eraseBreakpoint a s.bp }.reply .done)
  | .clearBreakpoints => .next ({ s with bp := [] }.reply .done)
  | .hasBreakpoint a => .next (s.reply (.flag (s.bp.contains a)))
  | .debuggerStep => .next { s with control := .stepping }
  | .continueExecution => .next { s with control := .continuing }
  | .isAtBreakpoint => .next (s.reply (.flag s.atBreakpoint))
  | .inspectRegister => .next (s.reply (.snapshot s.snapshot))
  | .memoryDump start stop => .next (s.reply (s.memoryDump start stop))
  | .setKey _ _ => .next (s.reply .done)
  | .getPixel col row => .next ((s.displayPixel col row).2.reply (flagReply (s.displayPixel col row).1))

/-- The host's turn, with no driver call in progress: the next pending call. With none pending nothing happens: no
instruction is executed but by a driver (R100), and between calls the Interpreter stands still (R40, R288; log 1). -/
def hostStep (s : State) : Host.Outcome State Fault Refusal :=
  match s.hostCalls with
  | [] => .next s
  | c :: rest => hostCall c { s with hostCalls := rest }

/-- Which agent takes the next step (R6): exactly one acts at a time. -/
inductive Turn where
  | scheduler
  | debugger
  | host
  /-- The single-writer precondition is broken (R233). -/
  | conflict
deriving DecidableEq, Repr

/-- The agent whose turn it is, from the run state and the control state (R39, R40, R233, R259). -/
def State.turn (s : State) : Turn :=
  match s.runState, s.control with
  | .running, .halted => .scheduler
  | .running, .stepping => .conflict
  | .running, .continuing => .conflict
  | .idle, .halted => .host
  | .stopped, .halted => .host
  | .idle, .stepping => .debugger
  | .idle, .continuing => .debugger
  | .stopped, .stepping => .debugger
  | .stopped, .continuing => .debugger

/-- One step of the agent whose turn it is. -/
def agentStep (s : State) : Host.Outcome State Fault Refusal :=
  match s.turn with
  | .scheduler => schedulerStep s
  | .debugger => debuggerStep s
  | .host => hostStep s
  | .conflict => .refused .concurrentDrivers

end Sys2Proof.Machine
end

