-- ==== Sys2Proof/Machine/Step.lean ====
section
/-! DEFINITION. The one step function of the machine, and the placing of a word where it fetches its next
instruction. -/

namespace Sys2Proof.Machine

/-- One step: the agent whose turn it is takes its step (spec/00_scope.md R6). -/
def step (s : State) : Host.Outcome State Fault Refusal := agentStep s

/-- The opcode-table word `w` of `nbits` bits stored where `step` fetches its next instruction, with a driver about to
run it, so that the next step is the attempt that executes it (log 1). -/
def State.withFetchWord (s : State) (nbits w : Nat) : State := s.placeFetchWord nbits w

end Sys2Proof.Machine
end

