-- ==== Sys2Proof/Safety.lean ====
section
/-! DEFINITION. The terms claims use: the well-formed states (spec/10_state.md R47), the degraded conditions of a
cycle as a named predicate (spec/60_exceptions.md R271, R272, R289), the advance class of an instruction (spec/40_cycle.md
R105), and the relations between the state before and the state after. -/

namespace Sys2Proof.Machine

/-! ### Well-formed states -/

/-- The instruction is `Fx0A`, the only one that can wait (R109). -/
def isKeyWait (i : Instr) : Bool :=
  match i with
  | .opFx0A _ => true
  | _ => false

/-- The pixels of the reference Display are a strictly rising list inside a display of positive size (R8, R204). -/
abbrev State.pixelsWf (s : State) : Prop :=
  0 < s.config.displayW ∧ 0 < s.config.displayH ∧ s.pixels.Pairwise (· < ·) ∧
    ∀ p ∈ s.pixels, p < s.config.displayW * s.config.displayH

/-- A waiting cycle is an `Fx0A` with an Input attached, inside a driver call (R100, R203); under the Scheduler it is
one that was due (R230). -/
abbrev State.waitWf (s : State) : Prop :=
  s.waiting = true →
    s.config.hasInput = true ∧ isKeyWait s.fetchInstr = true ∧ s.turn ≠ .host ∧
      (s.runState = .running → s.cycleDue = true)

/-- A well-formed state: memory canonical, SP in its range (R47), BP without duplicates (R38), at most one driver in
progress (R233), no clock ahead of the last sample (R222, R224), and the two conditions above. -/
abbrev State.wf (s : State) : Prop :=
  Memory.wf s.config.glyph s.mem ∧ s.sp.toNat ≤ 16 ∧ s.bp.Pairwise (· < ·) ∧ s.turn ≠ .conflict ∧
    s.tCycle ≤ s.now ∧ s.tTimer ≤ s.now ∧ s.pixelsWf ∧ s.waitWf

/-! ### Advance classes (R105) -/

/-- The four ways PC moves (R104). -/
inductive AdvanceClass where
  | direct
  | skip
  | ret
  | default
deriving DecidableEq, Repr

/-- The advance class of every instruction (R105). -/
def advanceClass (i : Instr) : AdvanceClass :=
  match i with
  | .op1nnn _ | .op2nnn _ | .opBnnn _ => .direct
  | .op3xnn _ _ | .op4xnn _ _ | .op5xy0 _ _ _ | .op9xy0 _ _ _ | .opEx9E _ | .opExA1 _ => .skip
  | .op00EE => .ret
  | .op00E0 | .op6xnn _ _ | .op7xnn _ _ | .op8xy0 _ _ | .op8xy1 _ _ | .op8xy2 _ _ | .op8xy3 _ _ | .op8xy4 _ _
  | .op8xy5 _ _ | .op8xy6 _ _ | .op8xy7 _ _ | .op8xyE _ _ | .opAnnn _ | .opCxnn _ _ | .opDxyn _ _ _ | .opFx07 _
  | .opFx0A _ | .opFx15 _ | .opFx18 _ | .opFx1E _ | .opFx29 _ | .opFx33 _ | .opFx55 _ | .opFx65 _
  | .opUnrecognized _ => .default

/-- The target of an instruction of class DIRECT (R121 to R123). -/
def directTarget (i : Instr) (s : State) : Nat :=
  match i with
  | .op1nnn nnn | .op2nnn nnn => nnn.toNat
  | .opBnnn nnn => nnn.toNat + (s.getV 0).toNat
  | _ => 0

/-- The condition of an instruction of class SKIP (R130 to R133, R193, R194). -/
def skipCondition (i : Instr) (s : State) : Bool :=
  match i with
  | .op3xnn x nn => s.getV x == nn
  | .op4xnn x nn => s.getV x != nn
  | .op5xy0 x y _ => s.getV x == s.getV y
  | .op9xy0 x y _ => s.getV x != s.getV y
  | .opEx9E x => (s.keyPressed (s.getV x)).1
  | .opExA1 x => !(s.keyPressed (s.getV x)).1
  | _ => false

/-! ### Which registers an instruction may write -/

/-- The general registers an instruction may write in the state `s`: its destination, and VF where the instruction
writes it as a flag (R20, R22, R176, R197). -/
def mayWriteV (i : Instr) (s : State) (k : Reg) : Bool :=
  match i with
  | .op6xnn x _ | .op7xnn x _ | .op8xy0 x _ | .op8xy1 x _ | .op8xy2 x _ | .op8xy3 x _ | .opCxnn x _ | .opFx07 x
  | .opFx0A x => k == x
  | .op8xy4 x _ | .op8xy5 x _ | .op8xy6 x _ | .op8xy7 x _ | .op8xyE x _ => k == x || k == regVF
  | .opFx65 x => decide (k ≤ x)
  | .opDxyn _ _ _ => s.config.hasDisplay && k == regVF
  | .op00E0 | .op00EE | .op1nnn _ | .op2nnn _ | .op3xnn _ _ | .op4xnn _ _ | .op5xy0 _ _ _ | .op9xy0 _ _ _ | .opAnnn _
  | .opBnnn _ | .opEx9E _ | .opExA1 _ | .opFx15 _ | .opFx18 _ | .opFx1E _ | .opFx29 _ | .opFx33 _ | .opFx55 _
  | .opUnrecognized _ => false

/-- The address `a` is one of the bytes that the instruction stores to (R66): I to I + 2 for `Fx33`, I to I + x for
`Fx55`, none for any other. -/
def storesTo (i : Instr) (s : State) (a : Nat) : Bool :=
  match i with
  | .opFx33 _ => decide (s.baseAddr ≤ a ∧ a < s.baseAddr + 3)
  | .opFx55 x => decide (s.baseAddr ≤ a ∧ a < s.baseAddr + (x.val + 1))
  | _ => false

/-! ### Unrecognized words (R87) -/

/-- The class `UNRECOGNIZED`. -/
def isUnrecognized (i : Instr) : Bool :=
  match i with
  | .opUnrecognized _ => true
  | _ => false

/-- How many of the 4096 words of a family are unrecognized (the counts of R87). -/
def unrecognizedInFamily (top : Nat) : Nat :=
  ((List.range 4096).filter (fun k => isUnrecognized (decode (BitVec.ofNat 16 (4096 * top + k))))).length

/-! ### Degraded conditions (R272) -/

/-- The labels DG1 to DG12 of R272. -/
inductive Degraded where
  | dg1 | dg2 | dg3 | dg4 | dg5 | dg6 | dg7 | dg8 | dg9 | dg10 | dg11 | dg12
deriving DecidableEq, Repr

/-- The degraded conditions an instruction itself meets in the state `s`, but for the wrap of PC. -/
def degradedOf (i : Instr) (s : State) : List Degraded :=
  match i with
  | .opUnrecognized _ => [.dg2]
  | .op00EE => if s.sp = 0 then [.dg3] else []
  | .op2nnn _ => if s.sp.toNat < stackDepth then [] else [.dg4]
  | .opFx33 _ => if s.baseAddr + 2 < memSize then [] else [.dg5]
  | .opFx55 x => if s.baseAddr + x.val < memSize then [] else [.dg5]
  | .opFx65 x => if s.baseAddr + x.val < memSize then [] else [.dg6]
  | .op00E0 => if s.config.hasDisplay then [] else [.dg7]
  | .opDxyn _ _ n =>
    if s.config.hasDisplay then (if s.baseAddr + n.toNat ≤ memSize ∨ n = 0 then [] else [.dg6]) else [.dg7]
  | .opEx9E x | .opExA1 x =>
    if s.config.hasInput then (if (s.getV x).toNat ≤ 15 then [] else [.dg10]) else [.dg8]
  | .opFx0A _ => if s.config.hasInput then [] else [.dg9]
  | .opFx1E x => if s.i.toNat + (s.getV x).toNat < 65536 then [] else [.dg12]
  | _ => []

/-- Where PC goes before the reduction modulo 65536 (R104). For a direct set it does not wrap. -/
def unwrappedPc (i : Instr) (s : State) : Nat :=
  match advanceClass i with
  | .direct => directTarget i s
  | .skip => s.pc.toNat + (if skipCondition i s then 4 else 2)
  | .ret => (s.pop.1.getD 0).toNat + 2
  | .default => s.pc.toNat + 2

/-- The degraded conditions the next cycle of `s` meets. A run is free of them when every list is empty (R271). -/
def degraded (s : State) : List Degraded :=
  (if s.pc.toNat + 1 < memSize then [] else [.dg1]) ++ degradedOf s.fetchInstr s ++
    (if unwrappedPc s.fetchInstr s < 65536 then [] else [.dg11])

/-! ### Where a driver's cycle runs -/

/-- `u` is the state in which the cycle of the next step runs, when that step is an attempt of the Debugger that
executes: after an open poll and the breakpoint test, or, for an `Fx0A` that waits, as it stands (R244, R247). -/
abbrev AttemptFrom (s u : State) : Prop :=
  (s.waiting = false ∧ s.pollOpen = (true, u) ∧ u.pc ∉ u.bp) ∨ (s.waiting = true ∧ u = s)

/-- `u` is the state of the Scheduler's iteration after an open poll and its one time sample, or, for an iteration
whose `Fx0A` waits, as it stands, with the sample it began with (R224, R230). -/
abbrev IterationFrom (s u : State) : Prop :=
  (s.waiting = false ∧ ∃ s', s.pollOpen = (true, s') ∧ u = s'.sampleNow) ∨ (s.waiting = true ∧ u = s)

/-- The host operations of R312 that write the Interpreter: the resets, the loads, the writes, `push` and `pop`. -/
def writesInterpreter (c : HostCall) : Bool :=
  match c with
  | .interpreterReset | .memoryReset | .registerReset | .stackReset | .loadProgram _ | .loadGlyphTable _
  | .writeByte _ _ | .writeWord _ _ | .push _ | .pop => true
  | .readByte _ | .readWord _ | .rawView | .runScheduler | .setCancelRequested | .constructDebugger | .addBreakpoint _
  | .removeBreakpoint _ | .clearBreakpoints | .hasBreakpoint _ | .debuggerStep | .continueExecution | .isAtBreakpoint
  | .inspectRegister | .memoryDump _ _ | .setKey _ _ | .getPixel _ _ => false

/-! ### Before and after -/

/-- PC has taken the default advance, modulo 65536 (R24, R104). -/
abbrev AdvancedBy2 (s t : State) : Prop := t.pc.toNat = (s.pc.toNat + 2) % 65536

/-- PC has skipped or not, modulo 65536 (R24, R104, R134). -/
abbrev SkippedIf (c : Prop) [Decidable c] (s t : State) : Prop :=
  t.pc.toNat = (s.pc.toNat + if c then 4 else 2) % 65536

/-- `V[x]` has received `r` and every other register is as it was. -/
abbrev WroteV (s t : State) (x : Reg) (r : Nat) : Prop :=
  ∀ k : Reg, (t.getV k).toNat = if k = x then r else (s.getV k).toNat

/-- `V[x]` has received the result `r` and VF the flag `f`, and every other register is as it was. When `x` is 15 the
later of the two writes stands, in the order of `VF_ORDER` (R155). -/
abbrev WroteResultAndFlag (s t : State) (x : Reg) (r f : Nat) : Prop :=
  ∀ k : Reg, (t.getV k).toNat =
    if k = regVF then (if x = regVF ∧ s.config.vfOrder = .resultLast then r else f)
    else if k = x then r else (s.getV k).toNat

/-- Every address reads as before. -/
abbrev SameMemory (s t : State) : Prop := ∀ a : Nat, t.readByte a = s.readByte a

/-- The Interpreter of `t` is that of `s`: registers, stack, memory and configuration. -/
abbrev SameInterpreter (s t : State) : Prop :=
  t.v = s.v ∧ t.pc = s.pc ∧ t.i = s.i ∧ t.sp = s.sp ∧ t.dt = s.dt ∧ t.st = s.st ∧ t.stack = s.stack ∧ t.mem = s.mem ∧
    t.config = s.config

/-- The state `u` once a host call has been taken off the queue, leaving `rest`, and has returned `r` (R312; log 8). -/
abbrev Returned (u : State) (rest : List HostCall) (r : HostReply) : State :=
  { u with hostCalls := rest, hostReplies := r :: u.hostReplies }

/-- A timer after one tick: down by 1, never below 0 (R210). -/
abbrev ticked (b : Byte) : Byte := BitVec.ofNat 8 (b.toNat - 1)

/-- What the record of calls is after one render: nothing is rendered with no Display attached (R228, R244). -/
abbrev rendered (s : State) : List CollabCall := if s.config.hasDisplay then .render :: s.calls else s.calls

/-- The pixel `q` of the reference Display is under a set bit of the sprite `rows` at `(x0, y0)` (R204): `r` counts
rows downwards, `j` pixels from the left, the most significant bit is leftmost, every pixel wraps on its own. -/
abbrev CoveredBySprite (c : Config) (x0 y0 : Nat) (rows : List Byte) (q : Nat) : Prop :=
  ∃ r j : Nat, ∃ b : Byte, rows[r]? = some b ∧ j < 8 ∧ b.getLsbD (7 - j) = true ∧
    q = ((y0 + r) % c.displayH) * c.displayW + (x0 + j) % c.displayW

/-- `t` is `s` but for the settled answers, the count of free answers and the record of calls. -/
abbrev OnlyAnswers (s t : State) : Prop := t = { s with answers := t.answers, draws := t.draws, calls := t.calls }

end Sys2Proof.Machine
end

