-- ==== Sys2Proof/Certificates/Slice0/Obligations.lean ====
section
/-! DEFINITION. The statements for the provers. Each docstring names the rules of spec/ it formalises; a clause that is
the model's choice names its log entry. -/

open Sys2Proof Sys2Proof.Machine

/-! ### Encoding -/

/-- R81, R82, R85: decoding the word of a well-formed instruction gives the instruction back, with every operand. -/
def Obligations.DecodeInvertsEncode : Prop :=
  ∀ i : Instr, i.wellFormed = true → decode (encode i) = i

/-- R81, R85, R89: every word is the encoding of the instruction it decodes to, which is well-formed; no bit is
dropped, the ignored fields among them. -/
def Obligations.EncodeInvertsDecode : Prop :=
  ∀ op : Word, encode (decode op) = op ∧ (decode op).wellFormed = true

/-- R86 (which the spec derives from R84 and R85; the don't-care bits are its decision D6): decoding is total, no two
rows of the map overlap, a word decodes to the row it selects, and a word that selects no row is `UNRECOGNIZED`. -/
def Obligations.DecodeFollowsTheOpcodeMap : Prop :=
  ∀ op : Word,
    (∀ r ∈ opcodeRows, r.selectedBy op = true ↔ (decode op).mnemonic = r.mnemonic) ∧
    (∀ r ∈ opcodeRows, ∀ r' ∈ opcodeRows, r.selectedBy op = true → r'.selectedBy op = true → r = r') ∧
    ((∀ r ∈ opcodeRows, r.selectedBy op = false) ↔ decode op = .opUnrecognized op)

/-- R87, R106 (under the masks of R84, the spec's decision D6): the unrecognized words, exactly, with their counts,
and that each executes as a no-op that changes nothing but PC, which advances by 2. -/
def Obligations.UnrecognizedWordsAreExactlyTheListedNoOps : Prop :=
  (∀ op : Word, decode op = .opUnrecognized op ↔
    (op.toNat < 0x1000 ∧ op.toNat ≠ 0x00E0 ∧ op.toNat ≠ 0x00EE) ∨
    (op.toNat / 0x1000 = 0x8 ∧ op.toNat % 0x10 ∈ [0x8, 0x9, 0xA, 0xB, 0xC, 0xD, 0xF]) ∨
    (op.toNat / 0x1000 = 0xE ∧ op.toNat % 0x100 ∉ [0x9E, 0xA1]) ∨
    (op.toNat / 0x1000 = 0xF ∧
      op.toNat % 0x100 ∉ [0x07, 0x0A, 0x15, 0x18, 0x1E, 0x29, 0x33, 0x55, 0x65])) ∧
  unrecognizedInFamily 0x0 = 4094 ∧ unrecognizedInFamily 0x8 = 1792 ∧ unrecognizedInFamily 0xE = 4064 ∧
  unrecognizedInFamily 0xF = 3952 ∧ ((List.range 16).map unrecognizedInFamily).sum = 13902 ∧
  ∀ (op : Word) (s : State), ∃ t, exec (.opUnrecognized op) s = .next t ∧
    t = { s with pc := t.pc } ∧ AdvancedBy2 s t

/-- R92: the byte-to-instruction readings that the source's scenarios fix. -/
def Obligations.ScenarioBytesDecode : Prop :=
  decodeBytes [0x60, 0x42] = .ok (.op6xnn 0 0x42, []) ∧ decodeBytes [0x61, 0x20] = .ok (.op6xnn 1 0x20, []) ∧
  decodeBytes [0x80, 0x14] = .ok (.op8xy4 0 1, []) ∧ decodeBytes [0x23, 0x00] = .ok (.op2nnn 0x300, []) ∧
  decodeBytes [0x00, 0xEE] = .ok (.op00EE, []) ∧ decodeBytes [0x00, 0x00] = .ok (.opUnrecognized 0, [])

/-! ### Fetch and step -/

/-- R101: the opcode is `(Memory[PC] << 8) | Memory[PC+1]`, a byte that is not there taken as 0; that each byte is
substituted on its own, as at PC = 0xFFF, is the spec's decision D35 (U17; log 15, DEDUCED). -/
def Obligations.FetchIsBigEndianWithAbsentBytesZero : Prop :=
  ∀ s : State,
    s.fetch.toNat = 256 * ((s.readByte s.pc.toNat).getD 0).toNat + ((s.readByte (s.pc.toNat + 1)).getD 0).toNat ∧
    (s.pc.toNat = 0xFFF → s.fetch.toNat = 256 * (s.memRead 0xFFF).toNat) ∧
    (0x1000 ≤ s.pc.toNat → s.fetch = 0)

/-- R100 to R103: when the two bytes at PC are those of a well-formed instruction, a cycle is that instruction's
execution and nothing else. A step of the machine runs it inside a driver: in an attempt of the Debugger, between the
open poll and the tick and render that follow (R244, R248), and in an iteration of the Scheduler whose instruction
clock is due, between the one time sample and what ends the iteration (R224). An `Fx0A` that waits has nothing follow
it yet (R203; log 9). -/
def Obligations.StepRunsTheDecodedInstruction : Prop :=
  ∀ (s : State) (i : Instr), i.wellFormed = true →
    s.memRead s.pc.toNat = hiByte (encode i) → s.memRead (s.pc.toNat + 1) = loByte (encode i) →
    cycle s = exec i s ∧
    (∀ u t, s.turn = .debugger → AttemptFrom s u → exec i u = .next t →
      step s = .next (if t.waiting then t else t.finishAttempt)) ∧
    (∀ u t, s.turn = .scheduler → IterationFrom s u → u.cycleDue = true → exec i u = .next t →
      step s = .next t.afterSchedulerCycle)

/-- R64, R101, R248: a word placed where the next instruction is fetched is what the next step executes, from every
well-formed state. `withFetchWord` puts a `continueExecution()` in progress, its poll settled as open and no
breakpoint at PC, which is the model's choice (log 1, DESIGN CHOICE; the record of calls is log 6): the step is the
attempt that polls, executes the word, and then ticks and renders. -/
def Obligations.PlacedWordIsWhatTheNextStepRuns : Prop :=
  ∀ (s : State) (op : Word), s.wf → decodeTableWord 16 op.toNat = some (decode op) ∧
    ∃ u t, AttemptFrom (s.withFetchWord 16 op.toNat) u ∧
      u = { s.withFetchWord 16 op.toNat with
        answers := s.answers
        calls := if s.config.hasInput then .pollAndContinue true :: s.calls else s.calls } ∧
      exec (decode op) u = .next t ∧
      step (s.withFetchWord 16 op.toNat) = .next (if t.waiting then t else t.finishAttempt)

/-! ### Control transfer -/

/-- R120 (the spec's decisions D7 for the empty stack, D36 for the slot): PC becomes the popped value plus 2, or 2 on
an empty stack; the popped slot keeps its value. -/
def Obligations.ReturnPopsThenAddsTwo : Prop :=
  ∀ s : State, s.sp.toNat ≤ 16 → ∃ t, exec .op00EE s = .next t ∧ t = { s with pc := t.pc, sp := t.sp } ∧
    (s.sp = 0 → t.sp = 0 ∧ t.pc = 2) ∧
    (s.sp ≠ 0 → t.sp.toNat = s.sp.toNat - 1 ∧ t.pc.toNat = ((s.slot (s.sp.toNat - 1)).toNat + 2) % 65536)

/-- R122 (the spec's decision D8 for the full stack): the call's own address is pushed when a slot is free, and on a
full stack the jump is taken all the same. -/
def Obligations.CallPushesItsOwnAddressAndJumps : Prop :=
  ∀ (nnn : Addr12) (s : State), s.sp.toNat ≤ 16 → ∃ t, exec (.op2nnn nnn) s = .next t ∧
    t = { s with pc := t.pc, sp := t.sp, stack := t.stack } ∧ t.pc.toNat = nnn.toNat ∧
    (s.sp.toNat < 16 → t.sp.toNat = s.sp.toNat + 1 ∧
      ∀ k, k < 16 → t.slot k = if k = s.sp.toNat then s.pc else s.slot k) ∧
    (s.sp.toNat = 16 → t.sp = s.sp ∧ t.stack = s.stack)

/-- R121: a jump writes PC and nothing else, and a jump to its own address leaves the whole state as it was. -/
def Obligations.JumpSetsPcOnly : Prop :=
  ∀ (nnn : Addr12) (s : State), (encode (.op1nnn nnn)).toNat = 0x1000 + nnn.toNat ∧
    ∃ t, exec (.op1nnn nnn) s = .next t ∧ t = { s with pc := t.pc } ∧ t.pc.toNat = nnn.toNat ∧
      (s.pc.toNat = nnn.toNat → t = s)

/-- R123, R173 (that neither value is reduced is the spec's decision D27): `Bnnn` jumps to nnn + V0, which never
wraps, and `Fx29` points I at five times the whole byte. -/
def Obligations.OffsetJumpAndGlyphAddressAreNotReduced : Prop :=
  ∀ (nnn : Addr12) (x : Reg) (s : State),
    (∃ t, exec (.opBnnn nnn) s = .next t ∧ t = { s with pc := t.pc } ∧ t.pc.toNat = nnn.toNat + (s.getV 0).toNat) ∧
    (∃ t, exec (.opFx29 x) s = .next t ∧ t = { s with i := t.i, pc := t.pc } ∧ AdvancedBy2 s t ∧
      t.i.toNat = (s.getV x).toNat * 5)

/-! ### Skips -/

/-- R130, R131: the skips on an immediate write PC only, by 4 when their condition holds and by 2 otherwise. -/
def Obligations.ImmediateSkipsMovePcByFourOrTwo : Prop :=
  ∀ (x : Reg) (nn : Byte) (s : State),
    (encode (.op3xnn x nn)).toNat = 0x3000 + 0x100 * x.val + nn.toNat ∧
    (encode (.op4xnn x nn)).toNat = 0x4000 + 0x100 * x.val + nn.toNat ∧
    (∃ t, exec (.op3xnn x nn) s = .next t ∧ t = { s with pc := t.pc } ∧ SkippedIf (s.getV x = nn) s t) ∧
    (∃ t, exec (.op4xnn x nn) s = .next t ∧ t = { s with pc := t.pc } ∧ SkippedIf (s.getV x ≠ nn) s t)

/-- R132, R133: the skips on two registers write PC only, by 4 when their condition holds and by 2 otherwise; that the
low nibble of `5xyN` and `9xyN` does not matter is the spec's decision D6. -/
def Obligations.RegisterSkipsMovePcByFourOrTwo : Prop :=
  ∀ (x y : Reg) (n : Nibble) (s : State),
    (∃ t, exec (.op5xy0 x y n) s = .next t ∧ t = { s with pc := t.pc } ∧ SkippedIf (s.getV x = s.getV y) s t) ∧
    (∃ t, exec (.op9xy0 x y n) s = .next t ∧ t = { s with pc := t.pc } ∧ SkippedIf (s.getV x ≠ s.getV y) s t)

/-! ### Load, arithmetic, logic, shift, random -/

/-- R140, R142: load immediate and register copy write `V[x]` and PC only. -/
def Obligations.LoadsWriteOneRegister : Prop :=
  ∀ (x y : Reg) (nn : Byte) (s : State),
    (encode (.op6xnn x nn)).toNat = 0x6000 + 0x100 * x.val + nn.toNat ∧
    (encode (.op8xy0 x y)).toNat = 0x8000 + 0x100 * x.val + 0x10 * y.val ∧
    (∃ t, exec (.op6xnn x nn) s = .next t ∧ t = { s with v := t.v, pc := t.pc } ∧ AdvancedBy2 s t ∧
      WroteV s t x nn.toNat) ∧
    (∃ t, exec (.op8xy0 x y) s = .next t ∧ t = { s with v := t.v, pc := t.pc } ∧ AdvancedBy2 s t ∧
      WroteV s t x (s.getV y).toNat)

/-- R141, R143 to R145: the wrapping add of an immediate, and OR, AND and exclusive OR, bit by bit; that VF is left as
it was unless it is the destination is the spec's decision D10. -/
def Obligations.LogicAndAddImmediateWriteOneRegister : Prop :=
  ∀ (x y : Reg) (nn : Byte) (s : State),
    (∃ t, exec (.op7xnn x nn) s = .next t ∧ t = { s with v := t.v, pc := t.pc } ∧ AdvancedBy2 s t ∧
      WroteV s t x (((s.getV x).toNat + nn.toNat) % 256)) ∧
    (∃ t, exec (.op8xy1 x y) s = .next t ∧ t = { s with v := t.v, pc := t.pc } ∧ AdvancedBy2 s t ∧
      (∀ j, (t.getV x).getLsbD j = ((s.getV x).getLsbD j || (s.getV y).getLsbD j)) ∧
      ∀ k, k ≠ x → t.getV k = s.getV k) ∧
    (∃ t, exec (.op8xy2 x y) s = .next t ∧ t = { s with v := t.v, pc := t.pc } ∧ AdvancedBy2 s t ∧
      (∀ j, (t.getV x).getLsbD j = ((s.getV x).getLsbD j && (s.getV y).getLsbD j)) ∧
      ∀ k, k ≠ x → t.getV k = s.getV k) ∧
    (∃ t, exec (.op8xy3 x y) s = .next t ∧ t = { s with v := t.v, pc := t.pc } ∧ AdvancedBy2 s t ∧
      (∀ j, (t.getV x).getLsbD j = ((s.getV x).getLsbD j != (s.getV y).getLsbD j)) ∧
      ∀ k, k ≠ x → t.getV k = s.getV k)

/-- R146, R155: the sum modulo 256, and VF 1 exactly when the sum before truncation exceeds 255; for `x = 15` the
later write of `VF_ORDER` stands (the spec's decision D9). -/
def Obligations.AddWritesSumAndCarry : Prop :=
  ∀ (x y : Reg) (s : State), ∃ t, exec (.op8xy4 x y) s = .next t ∧ t = { s with v := t.v, pc := t.pc } ∧
    AdvancedBy2 s t ∧
    WroteResultAndFlag s t x (((s.getV x).toNat + (s.getV y).toNat) % 256)
      (if 255 < (s.getV x).toNat + (s.getV y).toNat then 1 else 0)

/-- R147, R149, R155 (VF_ORDER is the spec's decision D9): the difference modulo 256, and VF 1 exactly when the
minuend is strictly greater. -/
def Obligations.SubtractsWriteDifferenceAndStrictFlag : Prop :=
  ∀ (x y : Reg) (s : State),
    (∃ t, exec (.op8xy5 x y) s = .next t ∧ t = { s with v := t.v, pc := t.pc } ∧ AdvancedBy2 s t ∧
      WroteResultAndFlag s t x (((s.getV x).toNat + 256 - (s.getV y).toNat) % 256)
        (if (s.getV x).toNat > (s.getV y).toNat then 1 else 0)) ∧
    (∃ t, exec (.op8xy7 x y) s = .next t ∧ t = { s with v := t.v, pc := t.pc } ∧ AdvancedBy2 s t ∧
      WroteResultAndFlag s t x (((s.getV y).toNat + 256 - (s.getV x).toNat) % 256)
        (if (s.getV y).toNat > (s.getV x).toNat then 1 else 0))

/-- R148, R150, R155 (VF_ORDER is the spec's decision D9): shifts by one bit, logical, the bit shifted out in VF; `y`
is ignored. -/
def Obligations.ShiftsMoveOneBitAndFlagIt : Prop :=
  ∀ (x y : Reg) (s : State),
    (∃ t, exec (.op8xy6 x y) s = .next t ∧ t = { s with v := t.v, pc := t.pc } ∧ AdvancedBy2 s t ∧
      WroteResultAndFlag s t x ((s.getV x) >>> 1).toNat (if (s.getV x).getLsbD 0 then 1 else 0)) ∧
    (∃ t, exec (.op8xyE x y) s = .next t ∧ t = { s with v := t.v, pc := t.pc } ∧ AdvancedBy2 s t ∧
      WroteResultAndFlag s t x ((s.getV x) <<< 1).toNat (if (s.getV x).getLsbD 7 then 1 else 0))

/-- R151, R153 (the spec's decision D11: no law on the byte): some byte AND the mask, and every bit clear in the mask
is clear in the result. That the byte is the next settled answer if there is one, and otherwise a free value of which
nothing is known, is the model's choice (log 4 and log 5, DESIGN CHOICE). -/
def Obligations.RandomByteIsMasked : Prop :=
  ∀ (x : Reg) (nn : Byte) (s : State), ∃ (rnd : Byte) (t : State), exec (.opCxnn x nn) s = .next t ∧
    (∀ b rest, s.answers.random = b :: rest → rnd = b) ∧
    t = { s with v := t.v, pc := t.pc, answers := t.answers, draws := t.draws } ∧ AdvancedBy2 s t ∧
    WroteV s t x (rnd &&& nn).toNat ∧ ∀ j, nn.getLsbD j = false → (t.getV x).getLsbD j = false

/-! ### Index register and memory transfer -/

/-- R170, R171: load I, and add a register to I modulo 65536 with no flag. -/
def Obligations.IndexRegisterLoadAndAdd : Prop :=
  ∀ (nnn : Addr12) (x : Reg) (s : State),
    (encode (.opAnnn nnn)).toNat = 0xA000 + nnn.toNat ∧ (encode (.opFx1E x)).toNat = 0xF01E + 0x100 * x.val ∧
    (∃ t, exec (.opAnnn nnn) s = .next t ∧ t = { s with i := t.i, pc := t.pc } ∧ AdvancedBy2 s t ∧
      t.i.toNat = nnn.toNat) ∧
    (∃ t, exec (.opFx1E x) s = .next t ∧ t = { s with i := t.i, pc := t.pc } ∧ AdvancedBy2 s t ∧
      t.i.toNat = (s.i.toNat + (s.getV x).toNat) % 65536)

/-- R174: the hundreds, tens and ones digit at I, I + 1, I + 2, each byte outside memory dropped on its own (the
spec's decision D5); every other byte, I and the registers as they were. -/
def Obligations.BcdStoresThreeDigits : Prop :=
  ∀ (x : Reg) (s : State), Memory.wf s.config.glyph s.mem → ∃ t, exec (.opFx33 x) s = .next t ∧
    t = { s with mem := t.mem, pc := t.pc } ∧ AdvancedBy2 s t ∧
    (∀ a, a < 4096 → (t.memRead a).toNat =
      if a = s.effAddr 0 then (s.getV x).toNat / 100
      else if a = s.effAddr 1 then (s.getV x).toNat / 10 % 10
      else if a = s.effAddr 2 then (s.getV x).toNat % 10
      else (s.memRead a).toNat) ∧
    ∀ a, storesTo (.opFx33 x) s a = false → t.readByte a = s.readByte a

/-- R175: `V[0]` to `V[x]` at I to I + x, each byte outside memory dropped on its own (the spec's decision D5); every
other byte, I and the registers as they were. -/
def Obligations.StoreRegistersWritesAscendingBytes : Prop :=
  ∀ (x : Reg) (s : State), Memory.wf s.config.glyph s.mem → ∃ t, exec (.opFx55 x) s = .next t ∧
    t = { s with mem := t.mem, pc := t.pc } ∧ AdvancedBy2 s t ∧
    (∀ k : Reg, k ≤ x → t.readByte (s.effAddr k.val) =
      if s.effAddr k.val < 4096 then some (s.getV k) else none) ∧
    ∀ a, (∀ k : Reg, k ≤ x → a ≠ s.effAddr k.val) → t.readByte a = s.readByte a

/-- R176: `V[0]` to `V[x]` from I to I + x, an absent byte as 0 (the spec's decision D4); the registers above, I and
memory as they were. -/
def Obligations.LoadRegistersReadsAscendingBytes : Prop :=
  ∀ (x : Reg) (s : State), ∃ t, exec (.opFx65 x) s = .next t ∧ t = { s with v := t.v, pc := t.pc } ∧
    AdvancedBy2 s t ∧ SameMemory s t ∧
    ∀ k : Reg, t.getV k = if k ≤ x then (s.readByte (s.effAddr k.val)).getD 0 else s.getV k

/-! ### Timers, keys, display -/

/-- R190 to R192: reading the delay timer and setting the two timers. -/
def Obligations.TimerRegisterInstructions : Prop :=
  ∀ (x : Reg) (s : State),
    (encode (.opFx07 x)).toNat = 0xF007 + 0x100 * x.val ∧ (encode (.opFx15 x)).toNat = 0xF015 + 0x100 * x.val ∧
    (encode (.opFx18 x)).toNat = 0xF018 + 0x100 * x.val ∧
    (∃ t, exec (.opFx07 x) s = .next t ∧ t = { s with v := t.v, pc := t.pc } ∧ AdvancedBy2 s t ∧
      WroteV s t x s.dt.toNat) ∧
    (∃ t, exec (.opFx15 x) s = .next t ∧ t = { s with dt := t.dt, pc := t.pc } ∧ AdvancedBy2 s t ∧
      t.dt = s.getV x) ∧
    (∃ t, exec (.opFx18 x) s = .next t ∧ t = { s with st := t.st, pc := t.pc } ∧ AdvancedBy2 s t ∧
      t.st = s.getV x)

/-- R193, R194: both instructions ask the Input about the whole byte `V[x]`, once; `Ex9E` skips when the answer is
"pressed", `ExA1` exactly when it is not; with no Input attached the answer is "not pressed" and nobody is asked. That
the answer is the next settled one if there is one and otherwise free is the model's choice (log 5), and so is that
the call is recorded (log 6), both DESIGN CHOICE; that it is free for an index above 15 too is R202 (the spec's
decision D13). -/
def Obligations.KeySkipsFollowTheInput : Prop :=
  ∀ (x : Reg) (s : State),
    (encode (.opEx9E x)).toNat = 0xE09E + 0x100 * x.val ∧ (encode (.opExA1 x)).toNat = 0xE0A1 + 0x100 * x.val ∧
    ∃ (p : Bool) (t u : State),
      (s.config.hasInput = false → p = false) ∧
      (s.config.hasInput = true → ∀ b rest, s.answers.keysDown = b :: rest → p = b) ∧
      exec (.opEx9E x) s = .next t ∧ OnlyAnswers { s with pc := t.pc } t ∧ SkippedIf (p = true) s t ∧
      exec (.opExA1 x) s = .next u ∧ OnlyAnswers { s with pc := u.pc } u ∧ SkippedIf (p = false) s u ∧
      (s.config.hasInput = true →
        t.calls = .isKeyPressed (s.getV x) p :: s.calls ∧ u.calls = .isKeyPressed (s.getV x) p :: s.calls) ∧
      (s.config.hasInput = false → t = { s with pc := t.pc } ∧ u = { s with pc := u.pc })

/-- R195, R199, R203 (the hold is the spec's decision D14; log 9, DEDUCED): with an Input attached, when a key has
arrived `Fx0A` completes with it, when none has it holds, and whatever the Input says it does one of the two; while it
holds PC still addresses it, both timers stand still and nothing but the answers taken changes. With no Input attached
it completes at once with 0. That what the Input says is the next settled answer if there is one, and otherwise free,
is the model's choice (log 5), and so is that the completed call is recorded (log 6), both DESIGN CHOICE. -/
def Obligations.KeyWaitHoldsUntilAKeyArrives : Prop :=
  ∀ (x : Reg) (s : State), ∃ (r : Option Key) (t : State), exec (.opFx0A x) s = .next t ∧
    (s.config.hasInput = true → ∀ k rest, s.answers.keys = k :: rest → r = k) ∧
    (s.config.hasInput = false → r = some 0 ∧ t = { s with v := t.v, pc := t.pc, waiting := false }) ∧
    (s.config.hasInput = true → ∀ k, r = some k → t.calls = .waitForKey k :: s.calls) ∧
    (∀ k : Key, r = some k → OnlyAnswers { s with v := t.v, pc := t.pc, waiting := false } t ∧ AdvancedBy2 s t ∧
      WroteV s t x k.val) ∧
    (r = none → t = { s with waiting := true, answers := t.answers, draws := t.draws })

/-- R203, R230, R247 (that the wait is a hold which the next step continues is log 9, DEDUCED, the spec's decision D14;
that the answer is the next settled one, else free, is log 5): while an `Fx0A` waits inside a Scheduler iteration or a
Debugger call and the Input, asked once more, has no key, a step of the machine polls nothing, ticks nothing, renders
nothing, tests no breakpoint and changes nothing but the answer it took. -/
def Obligations.WaitingSuspendsTheDriver : Prop :=
  ∀ s : State, s.wf → s.waiting = true → s.answerKey.1 = none →
    step s = .next { s with answers := s.answerKey.2.answers, draws := s.answerKey.2.draws }

/-- R196: with a Display attached it is cleared, without one only PC changes; VF is not touched. The clauses on the
record of calls and on the pixels are the model's: log 6 (DESIGN CHOICE) and log 25 (PRESUMED, the reference Display of
R204). -/
def Obligations.ClearDisplayTouchesNoRegister : Prop :=
  ∀ s : State, encode .op00E0 = 0x00E0 ∧
    ∃ t, exec .op00E0 s = .next t ∧ t = { s with pc := t.pc, calls := t.calls, pixels := t.pixels } ∧
      AdvancedBy2 s t ∧ t.calls = (if s.config.hasDisplay then .clear :: s.calls else s.calls) ∧
      t.pixels = (if s.config.display = .reference then [] else s.pixels)

/-- R197, R198, R199: with a Display attached the `n` bytes at I (absent ones as 0, the spec's decision D15) are drawn
at `(V[x], V[y])`, and VF receives 1 exactly when the Display reports a collision; I and memory are as they were. With
no Display attached only PC changes, VF included. The rest is the model's: that the call is recorded is log 6 (DESIGN
CHOICE), that the answer of an oracle Display is the next settled one if there is one and otherwise free is log 5
(DESIGN CHOICE), and that the reference Display answers as `drawRows` does is log 25 (PRESUMED, the informative R204,
the spec's decision D16). -/
def Obligations.DrawPassesTheSpriteAndWritesVf : Prop :=
  ∀ (x y : Reg) (n : Nibble) (s : State), ∃ t, exec (.opDxyn x y n) s = .next t ∧ AdvancedBy2 s t ∧ SameMemory s t ∧
    t = { s with v := t.v, pc := t.pc, answers := t.answers, draws := t.draws, calls := t.calls, pixels := t.pixels } ∧
    (s.config.hasDisplay = false → t = { s with pc := t.pc }) ∧
    (s.config.hasDisplay = true → ∃ (c : Bool) (rows : List Byte), WroteV s t 15 (if c then 1 else 0) ∧
      rows.length = n.toNat ∧ (∀ k, k < n.toNat → rows[k]? = some ((s.readByte (s.effAddr k)).getD 0)) ∧
      t.calls = .drawSprite (s.getV x) (s.getV y) rows n c :: s.calls ∧
      (s.config.display = .oracle → t.pixels = s.pixels ∧ ∀ b rest, s.answers.collisions = b :: rest → c = b) ∧
      (s.config.display = .reference →
        (c, t.pixels) = drawRows s.config (s.getV x).toNat (s.getV y).toNat rows (false, s.pixels)))

/-- R204 (the informative reference Display, which the spec marks as its own; log 25, PRESUMED): on a display at least
8 wide and as tall as the sprite, drawing flips exactly the pixels under a set bit, and reports a collision exactly
when one of those was on; drawing the same sprite again at the same position restores the pixels. The rule's further
sentence, that the second draw then collides, holds on a display whose pixels under the sprite are off (log 11). -/
def Obligations.ReferenceDrawXorsTheSprite : Prop :=
  ∀ (c : Config) (x0 y0 : Nat) (rows : List Byte) (ps : List Nat), ps.Pairwise (· < ·) →
    (8 ≤ c.displayW → rows.length ≤ c.displayH →
      (∀ q, (CoveredBySprite c x0 y0 rows q → (q ∈ (drawRows c x0 y0 rows (false, ps)).2 ↔ q ∉ ps)) ∧
        (¬ CoveredBySprite c x0 y0 rows q → (q ∈ (drawRows c x0 y0 rows (false, ps)).2 ↔ q ∈ ps))) ∧
      ((drawRows c x0 y0 rows (false, ps)).1 = true ↔ ∃ q ∈ ps, CoveredBySprite c x0 y0 rows q)) ∧
    (drawRows c x0 y0 rows (false, (drawRows c x0 y0 rows (false, ps)).2)).2 = ps

/-! ### Rules over all instructions -/

/-- R108: `cycle()` is total on well-formed states, and what it refuses is an ill-formed SP only (log 7); the machine
has no fault. -/
def Obligations.EveryInstructionCompletes : Prop :=
  (∀ (i : Instr) (s : State), s.sp.toNat ≤ 16 → ∃ t, exec i s = .next t) ∧
  (∀ s : State, s.sp.toNat ≤ 16 → ∃ t, cycle s = .next t) ∧
  ∀ (i : Instr) (s : State) (r : Refusal), exec i s = .refused r →
    16 < s.sp.toNat ∧ r = .illFormedStackPointer ∧ (i = .op00EE ∨ ∃ nnn, i = .op2nnn nnn)

/-- R104, R105: an instruction of class DIRECT sets PC to its target (R121 to R123), one of class SKIP adds 4 when its
condition holds and 2 otherwise (R130 to R133, R193, R194), `00EE` goes to the popped value plus 2, or to 2 on an
empty stack (the spec's decision D7; log 14, DEDUCED), and every other adds 2, an `Fx0A` that completes after a wait
too; one that still waits has not completed and has not moved PC (R109; log 9, DEDUCED). -/
def Obligations.PcMovesByItsAdvanceClass : Prop :=
  ∀ (i : Instr) (s t : State), exec i s = .next t →
    (advanceClass i = .direct → t.pc.toNat = directTarget i s) ∧
    (advanceClass i = .skip → SkippedIf (skipCondition i s = true) s t) ∧
    (advanceClass i = .ret → t.pc.toNat = ((s.pop.1.getD 0).toNat + 2) % 65536) ∧
    (advanceClass i = .default → isKeyWait i = false ∨ t.waiting = false → AdvancedBy2 s t) ∧
    (isKeyWait i = true → t.waiting = true → t.pc = s.pc)

/-- R20, R22: every general register keeps its value except an instruction's destination and, for the six that write a
flag, VF. -/
def Obligations.OnlyNamedRegistersAreWritten : Prop :=
  ∀ (i : Instr) (s t : State) (k : Reg), exec i s = .next t → mayWriteV i s k = false → t.getV k = s.getV k

/-- R66: only `Fx33` and `Fx55` store, and only to their own bytes; every other byte reads as before. -/
def Obligations.OnlyStoresWriteMemory : Prop :=
  ∀ (i : Instr) (s t : State) (a : Nat), Memory.wf s.config.glyph s.mem → exec i s = .next t →
    storesTo i s a = false → t.readByte a = s.readByte a

/-- R26, R27, R28, R30: the only writers of the stack and SP are `2nnn` and `00EE`, of I `Annn`, `Fx1E` and `Fx29`, of
DT `Fx15` and of ST `Fx18`. -/
def Obligations.SpecialRegistersHaveOnlyTheirWriters : Prop :=
  ∀ (i : Instr) (s t : State), exec i s = .next t →
    (t.stack = s.stack ∨ ∃ nnn, i = .op2nnn nnn) ∧
    (t.sp = s.sp ∨ i = .op00EE ∨ ∃ nnn, i = .op2nnn nnn) ∧
    (t.i = s.i ∨ (∃ nnn, i = .opAnnn nnn) ∨ (∃ x, i = .opFx1E x) ∨ ∃ x, i = .opFx29 x) ∧
    (t.dt = s.dt ∨ ∃ x, i = .opFx15 x) ∧ (t.st = s.st ∨ ∃ x, i = .opFx18 x)

/-- R44, R110, R257: an instruction changes no breakpoint, no driver state, no clock, no host call and no
configuration, and neither ticks the timers, each of which only its own setter writes, nor renders, as the record of
calls shows (log 6, DESIGN CHOICE). -/
def Obligations.InstructionsLeaveTheControlPlaneAlone : Prop :=
  ∀ (i : Instr) (s t : State), exec i s = .next t →
    t.bp = s.bp ∧ t.control = s.control ∧ t.runState = s.runState ∧ t.tCycle = s.tCycle ∧ t.tTimer = s.tTimer ∧
    t.now = s.now ∧ t.cancelRequested = s.cancelRequested ∧ t.hostCalls = s.hostCalls ∧
    t.hostReplies = s.hostReplies ∧ t.config = s.config ∧
    (t.dt = s.dt ∨ ∃ x, i = .opFx15 x ∧ t.dt = s.getV x) ∧ (t.st = s.st ∨ ∃ x, i = .opFx18 x ∧ t.st = s.getV x) ∧
    (t.calls = s.calls ∨ ∃ c, t.calls = c :: s.calls ∧ c ≠ .render ∧ ∀ b, c ≠ .pollAndContinue b)

/-- R110, R243, R257: a program cannot notice the Debugger: with any other breakpoint set and control state the same
cycle does the same. -/
def Obligations.TheDebuggerIsInvisibleToTheProgram : Prop :=
  ∀ (s t : State) (bp : List Word) (c : DebugControl), cycle s = .next t →
    cycle { s with bp := bp, control := c } = .next { t with bp := bp, control := c }

/-- R28, R213, R282: no instruction reads ST: with another sound timer the same instruction does the same, and only
`Fx18` writes it. -/
def Obligations.NoInstructionReadsTheSoundTimer : Prop :=
  ∀ (i : Instr) (s t : State) (b : Byte), exec i s = .next t → (∀ x, i ≠ .opFx18 x) →
    exec i { s with st := b } = .next { t with st := b }

/-! ### Timers -/

/-- R210: a tick takes each timer down by 1 if it is above 0, and changes nothing else. -/
def Obligations.TimerTickDecrementsEachTimer : Prop :=
  ∀ s : State, s.timerTick = { s with dt := s.timerTick.dt, st := s.timerTick.st } ∧
    (0 < s.dt.toNat → s.timerTick.dt.toNat = s.dt.toNat - 1) ∧ (s.dt = 0 → s.timerTick.dt = 0) ∧
    (0 < s.st.toNat → s.timerTick.st.toNat = s.st.toNat - 1) ∧ (s.st = 0 → s.timerTick.st = 0)

/-- R211 (which the spec derives from R210): a timer at `v` is above 0 after fewer than `v` ticks, reaches 0 after
exactly `v`, and stays there. -/
def Obligations.TimersReachZeroAfterTheirValue : Prop :=
  ∀ (s : State) (n : Nat), ((State.timerTick^[n]) s).dt.toNat = s.dt.toNat - n ∧
    ((State.timerTick^[n]) s).st.toNat = s.st.toNat - n

/-! ### The Scheduler -/

/-- R222, R223 (the starting values are the spec's decision D17): entry takes one time sample, starts both clocks at
it, and changes nothing of the Interpreter. A sample is the last one plus the time that has passed since, a negative
one counting as 0, so that samples never decrease (log 17, DESIGN CHOICE); the time that has passed is the next settled
answer if there is one, and otherwise free (log 5, DESIGN CHOICE). -/
def Obligations.RunEntryStartsBothClocks : Prop :=
  (∀ (s : State) (rest : List HostCall), s.turn = .host → s.hostCalls = .runScheduler :: rest →
    ∃ t, step s = .next t ∧ t.runState = .running ∧ t.tCycle = t.now ∧ t.tTimer = t.now ∧ t.now = s.sampleNow.now ∧
      SameInterpreter s t ∧ t.hostCalls = rest ∧ t.bp = s.bp) ∧
  ∀ s : State, s.now ≤ s.sampleNow.now ∧
    (∀ e es, s.answers.elapsed = e :: es → s.sampleNow =
      { s with now := s.now + max 0 e, answers := { s.answers with elapsed := es } }) ∧
    (s.answers.elapsed = [] → s.sampleNow =
      { s with now := s.now + max 0 (Config.freeElapsed s.draws), draws := s.draws + 1 })

/-- R224, R228, R230 (one sample, and clocks set to it, are the spec's decision D17; no render without a Display is
D18; that the render is recorded is log 6, DESIGN CHOICE): an iteration that passes the poll takes one time sample,
executes one instruction if 1/500 second has passed and resets that clock to the sample, then ticks if 1/60 second has
passed and resets that clock, and renders. Where the instruction is an `Fx0A` that begins or goes on to wait, nothing
follows it (log 9, DEDUCED); once its key arrives, the instruction clock is set to the sample the iteration began
with, and that same sample is compared for the tick. The poll and the sample leave the Interpreter and both clocks as
they were (R276). -/
def Obligations.SchedulerIterationIsTimed : Prop :=
  ∀ s u : State, s.turn = .scheduler → IterationFrom s u →
    (SameInterpreter s u ∧ u.tCycle = s.tCycle ∧ u.tTimer = s.tTimer) ∧
    (∀ t, 1 / 500 ≤ u.now - u.tCycle → cycle u = .next t → t.waiting = true → step s = .next t) ∧
    ∀ w, ((1 / 500 ≤ u.now - u.tCycle ∧ ∃ t, cycle u = .next t ∧ t.waiting = false ∧ w = { t with tCycle := u.now }) ∨
        (s.waiting = false ∧ u.now - u.tCycle < 1 / 500 ∧ w = u)) →
      (1 / 60 ≤ u.now - u.tTimer → step s =
        .next { w with dt := ticked w.dt, st := ticked w.st, tTimer := u.now, calls := rendered w }) ∧
      (u.now - u.tTimer < 1 / 60 → step s = .next { w with calls := rendered w })

/-- R225, R226, R276 (the spec's decisions D18 and D19; that an answer is the next settled one, else free, is log 5,
and that the call is recorded is log 6, both DESIGN CHOICE): when the poll answers closed the loop returns at once:
run state `Stopped`, no cycle, no tick, no render. The poll: a cancellation request, made before or sampled now,
closes it without asking the Input and is never cleared; with no request an attached Input is asked and its answer is
the poll's, and an absent one counts as still open. Whatever the answer, settled or free, the poll leaves the
Interpreter and the drivers as they were (R276). -/
def Obligations.SchedulerStopsAtAClosedPoll : Prop :=
  (∀ s s' : State, s.turn = .scheduler → s.waiting = false → s.pollOpen = (false, s') → ∃ t, step s = .next t ∧
    t.runState = .stopped ∧ SameInterpreter s t ∧ t.calls = s'.calls ∧ t.tCycle = s.tCycle ∧ t.tTimer = s.tTimer) ∧
  (∀ s : State, s.pollOpen.2 = { s with
    answers := s.pollOpen.2.answers
    draws := s.pollOpen.2.draws
    calls := s.pollOpen.2.calls
    cancelRequested := s.pollOpen.2.cancelRequested }) ∧
  (∀ s : State, s.cancelRequested = true → s.pollOpen = (false, s)) ∧
  (∀ s : State, s.config.hasInput = false → s.pollOpen.1 = !s.pollOpen.2.cancelRequested) ∧
  (∀ s : State, s.config.hasInput = true →
    (s.pollOpen.2.cancelRequested = true ∧ s.pollOpen.1 = false ∧ s.pollOpen.2.calls = s.calls) ∨
    (s.pollOpen.2.cancelRequested = false ∧ s.pollOpen.2.calls = .pollAndContinue s.pollOpen.1 :: s.calls)) ∧
  ∀ (s : State) (c : Bool) (cs : List Bool), s.cancelRequested = false → s.answers.cancels = c :: cs →
    (c = true → s.pollOpen =
      (false, { s with cancelRequested := true, answers := { s.answers with cancels := cs } })) ∧
    (∀ b bs, c = false → s.config.hasInput = true → s.answers.polls = b :: bs → s.pollOpen =
      (b, { s with
        answers := { s.answers with cancels := cs, polls := bs }
        calls := .pollAndContinue b :: s.calls })) ∧
    (c = false → s.config.hasInput = false → s.pollOpen =
      (true, { s with answers := { s.answers with cancels := cs } }))

/-- R227 (that a clock that fires is set to the sample is the spec's decision D17; log 18, DEDUCED): across steps of
the Scheduler the instruction clock moves only by at least 1/500 second and the timer clock only by at least 1/60
second, and one that moves is set to the current sample, so that missed periods are lost: no catch-up. -/
def Obligations.SchedulerRatesAreBounded : Prop :=
  ∀ s t : State, s.turn = .scheduler → step s = .next t →
    (t.tCycle = s.tCycle ∨ (t.tCycle = t.now ∧ 1 / 500 ≤ t.tCycle - s.tCycle)) ∧
    (t.tTimer = s.tTimer ∨ (t.tTimer = t.now ∧ 1 / 60 ≤ t.tTimer - s.tTimer))

/-- R233, R322 (what the spec says a model refuses, its decision D24): a running Scheduler and a Debugger call in
progress at once have no meaning. -/
def Obligations.ConcurrentDriversAreRefused : Prop :=
  ∀ s : State, s.runState = .running → s.control ≠ .halted → step s = .refused .concurrentDrivers

/-! ### The Debugger -/

/-- R244 to R247 (the outcome names are the spec's decision D20; that the render is recorded is log 6, that the
outcome is kept as a reply log 8, both DESIGN CHOICE): the outcomes of `step()`: closure first; then a breakpoint at
PC, with nothing executed; else one cycle, one tick, one render. Where the instruction is an `Fx0A` that begins or
goes on to wait, the call does not return (log 9, DEDUCED); once its key arrives, the tick and the render follow and
the outcome is `Executed`. Closure and a breakpoint leave the Interpreter as it was, and an attempt that executes
starts from it as it was (R246, R276). -/
def Obligations.DebuggerStepOutcomes : Prop :=
  ∀ s : State, s.runState ≠ .running → s.control = .stepping →
    (∀ s', s.waiting = false → s.pollOpen = (false, s') → SameInterpreter s s' ∧ step s =
      .next { s' with control := .halted, hostReplies := .outcome .closed :: s'.hostReplies }) ∧
    (∀ s', s.waiting = false → s.pollOpen = (true, s') → s'.pc ∈ s'.bp → SameInterpreter s s' ∧ step s =
      .next { s' with control := .halted, hostReplies := .outcome (.breakpointHit s'.pc) :: s'.hostReplies }) ∧
    (∀ u, AttemptFrom s u → SameInterpreter s u ∧ u.bp = s.bp) ∧
    ∀ u t, AttemptFrom s u → cycle u = .next t →
      (t.waiting = true → step s = .next t) ∧
      (t.waiting = false → step s =
        .next { t with
          dt := ticked t.dt
          st := ticked t.st
          calls := rendered t
          control := .halted
          hostReplies := .outcome .executed :: t.hostReplies })

/-- R248, R249 (which the spec derives from R244; one attempt as one step is log 22, DEDUCED, the outcome as a reply
log 8, DESIGN CHOICE): an attempt of `continueExecution()` does what an attempt of `step()` does, but where `step()`
returns `Executed` it goes on. -/
def Obligations.ContinueIsRepeatedStep : Prop :=
  ∀ s t : State, s.runState ≠ .running → step { s with control := .stepping } = .next t →
    (t.control = .halted ∧ t.hostReplies = .outcome .executed :: s.hostReplies ∧
      step { s with control := .continuing } =
        .next { t with control := .continuing, hostReplies := s.hostReplies }) ∨
    (t.control = .halted ∧ t.hostReplies ≠ .outcome .executed :: s.hostReplies ∧
      step { s with control := .continuing } = .next t) ∨
    (t.control = .stepping ∧ step { s with control := .continuing } = .next { t with control := .continuing })

/-- R242 (the spec's decision D25 for members and non-members; that a call returns is recorded as a reply is log 8, and
that the set is a rising list without repeats is log 24, both DESIGN CHOICE): each of the four host calls is the set
operation, adding, removing, clearing and testing, and changes nothing else. -/
def Obligations.BreakpointOperationsAreSetOperations : Prop :=
  (∀ (bp : List Word) (a b : Word),
    (b ∈ insertBreakpoint a bp ↔ b = a ∨ b ∈ bp) ∧ (b ∈ eraseBreakpoint a bp ↔ b ∈ bp ∧ b ≠ a) ∧
    (bp.Pairwise (· < ·) → (insertBreakpoint a bp).Pairwise (· < ·) ∧ (eraseBreakpoint a bp).Pairwise (· < ·) ∧
      (a ∈ bp → insertBreakpoint a bp = bp) ∧ (a ∉ bp → eraseBreakpoint a bp = bp))) ∧
  ∀ (s : State) (a : Word) (rest : List HostCall), s.turn = .host →
    (s.hostCalls = .addBreakpoint a :: rest → step s = .next { s with
      hostCalls := rest, bp := insertBreakpoint a s.bp, hostReplies := .done :: s.hostReplies }) ∧
    (s.hostCalls = .removeBreakpoint a :: rest → step s = .next { s with
      hostCalls := rest, bp := eraseBreakpoint a s.bp, hostReplies := .done :: s.hostReplies }) ∧
    (s.hostCalls = .clearBreakpoints :: rest → step s = .next { s with
      hostCalls := rest, bp := [], hostReplies := .done :: s.hostReplies }) ∧
    (s.hostCalls = .hasBreakpoint a :: rest → step s = .next { s with
      hostCalls := rest, hostReplies := .flag (decide (a ∈ s.bp)) :: s.hostReplies })

/-- R254, R255 (that the range is inclusive is the spec's decision D21; log 23, DEDUCED; the reply is log 8, DESIGN
CHOICE): the snapshot is the register component, the dump is the inclusive range with absent bytes as 0, or an error
if `end < start`; neither changes the Interpreter. -/
def Obligations.InspectionReadsWithoutChanging : Prop :=
  ∀ (s : State) (rest : List HostCall) (a b : Nat), s.turn = .host →
    (s.hostCalls = .inspectRegister :: rest → step s = .next { s with
      hostCalls := rest
      hostReplies := .snapshot ⟨s.pc, s.i, s.v, s.sp, s.dt, s.st⟩ :: s.hostReplies }) ∧
    (s.hostCalls = .memoryDump a b :: rest → b < a → step s = .next { s with
      hostCalls := rest
      hostReplies := .dumpError :: s.hostReplies }) ∧
    (s.hostCalls = .memoryDump a b :: rest → a ≤ b → ∃ bs : List Byte, step s = .next { s with
      hostCalls := rest
      hostReplies := .bytes bs :: s.hostReplies } ∧ bs.length = b - a + 1 ∧
        ∀ k, k < bs.length → bs[k]? = some ((s.readByte (a + k)).getD 0))

/-! ### Component operations and reset -/

/-- R53, R54: bounds, and read after write, of one byte. -/
def Obligations.ByteAccessIsBoundedAndReadsTheLastWrite : Prop :=
  ∀ (s : State) (a b : Nat) (v : Byte),
    (4096 ≤ a → s.readByte a = none ∧ s.writeByte a v = (false, s)) ∧
    (a < 4096 → (s.readByte a).isSome = true ∧ (s.writeByte a v).1 = true) ∧
    (s.writeByte a v).2 = { s with mem := (s.writeByte a v).2.mem } ∧
    (a < 4096 → Memory.wf s.config.glyph s.mem →
      (s.writeByte a v).2.readByte b = if b = a then some v else s.readByte b)

/-- R55, R56, R64: words are big-endian and all or nothing; that nothing but memory changes is the spec's decision
D10. -/
def Obligations.WordAccessIsBigEndianAllOrNothing : Prop :=
  ∀ (s : State) (a : Nat) (w : Word),
    (s.writeWord a w).2 = { s with mem := (s.writeWord a w).2.mem } ∧
    (4096 ≤ a + 1 → s.readWord a = none ∧ s.writeWord a w = (false, s)) ∧
    (a + 1 < 4096 → (s.readWord a).map BitVec.toNat =
      some (256 * (s.memRead a).toNat + (s.memRead (a + 1)).toNat) ∧ (s.writeWord a w).1 = true) ∧
    (a + 1 < 4096 → Memory.wf s.config.glyph s.mem → (s.writeWord a w).2.readWord a = some w ∧
      ∀ b, b ≠ a → b ≠ a + 1 → (s.writeWord a w).2.readByte b = s.readByte b)

/-- R58 (that nothing else changes is the spec's decision D10): an image of at most 3584 bytes lies verbatim from
0x200, and nothing else changes; a longer one fails without mutation. -/
def Obligations.LoadProgramPlacesTheImage : Prop :=
  ∀ (s : State) (bytes : List Byte), Memory.wf s.config.glyph s.mem →
    (3584 < bytes.length → s.loadProgram bytes = (false, s)) ∧
    (bytes.length ≤ 3584 → (s.loadProgram bytes).1 = true ∧
      (s.loadProgram bytes).2 = { s with mem := (s.loadProgram bytes).2.mem } ∧
      (∀ k, k < bytes.length → (s.loadProgram bytes).2.readByte (0x200 + k) = bytes[k]?) ∧
      ∀ a, (a < 0x200 ∨ 0x200 + bytes.length ≤ a) → (s.loadProgram bytes).2.readByte a = s.readByte a)

/-- R31, R32 (that the popped slot keeps its value is the spec's decision D36): 16 pushes fit, a 17th fails without
modifying state, pop after push gives the value back, and pop on an empty stack fails without modifying state. -/
def Obligations.PopReturnsTheLastPush : Prop :=
  ∀ (s : State) (a : Word),
    (s.sp.toNat < 16 → (s.push a).1 = true ∧ (s.push a).2.sp.toNat = s.sp.toNat + 1 ∧
      (s.push a).2.pop = (some a, { (s.push a).2 with sp := s.sp }) ∧
      ∀ k, k ≠ s.sp.toNat → (s.push a).2.slot k = s.slot k) ∧
    (s.sp.toNat = 16 → s.push a = (false, s)) ∧ (s.sp = 0 → s.pop = (none, s))

/-- R45, R311, R313: after construction, in every configuration, the registers, the stack and memory hold their reset
values, BP is empty, and (the spec's decisions D17, D20) no driver runs. `Interpreter.reset()` (its decision D22)
gives the Interpreter of a fresh construction and touches nothing else. -/
def Obligations.ConstructionLeavesTheResetState : Prop :=
  ∀ c : Config, (∀ k, (State.construct c).getV k = 0) ∧ (State.construct c).pc = 0x200 ∧
    (State.construct c).i = 0 ∧ (State.construct c).sp = 0 ∧ (State.construct c).dt = 0 ∧
    (State.construct c).st = 0 ∧ (∀ k, (State.construct c).slot k = 0) ∧
    (∀ k : Fin 80, (State.construct c).readByte k.val = some c.glyph[k]) ∧
    (∀ a, 80 ≤ a → a < 4096 → (State.construct c).readByte a = some 0) ∧ (State.construct c).bp = [] ∧
    (State.construct c).runState = .idle ∧ (State.construct c).control = .halted ∧
    ∀ s : State, s.config = c → SameInterpreter (State.construct c) s.interpreterReset ∧
      s.interpreterReset = { s with
        v := s.interpreterReset.v
        pc := s.interpreterReset.pc
        i := s.interpreterReset.i
        sp := s.interpreterReset.sp
        dt := s.interpreterReset.dt
        st := s.interpreterReset.st
        stack := s.interpreterReset.stack
        mem := s.interpreterReset.mem }

/-- R33, R34, R60: the three component resets, each of its own component and nothing else. -/
def Obligations.ComponentResetsRestoreTheirComponents : Prop :=
  ∀ s : State,
    (s.memoryReset = { s with mem := s.memoryReset.mem } ∧
      (∀ k : Fin 80, s.memoryReset.readByte k.val = some s.config.glyph[k]) ∧
      ∀ a, 80 ≤ a → a < 4096 → s.memoryReset.readByte a = some 0) ∧
    ((∀ k, s.registerReset.getV k = 0) ∧
      s.registerReset = { s with v := s.registerReset.v, pc := 0x200, i := 0, sp := 0, dt := 0, st := 0 }) ∧
    ((∀ k, s.stackReset.slot k = 0) ∧ s.stackReset = { s with sp := 0, stack := s.stackReset.stack })

/-! ### Invariants -/

/-- R47 and the model's own canonical forms hold at reset. -/
def Obligations.ResetIsWellFormed : Prop :=
  State.reset.wf

/-- R47 ("Every operation of this spec preserves these invariants") and the model's own canonical forms: every step of
every agent keeps a well-formed state well-formed, from every well-formed state. -/
def Obligations.EveryStepKeepsTheStateWellFormed : Prop :=
  ∀ s t : State, s.wf → step s = .next t → t.wf

/-- R108, R270, R289: from a well-formed state a step always gives a next state; the machine never stops. -/
def Obligations.WellFormedStatesAlwaysStep : Prop :=
  ∀ s : State, s.wf → ∃ t, step s = .next t

/-! ### Between driver calls -/

/-- R40, R100, R288, R312: while no driver call is in progress no instruction is executed: with no host call pending
nothing happens, and a pending one is taken off the queue, calls no collaborator, and changes the Interpreter only if
it is one of the resets, loads, writes, `push` or `pop`. Each call is then a step with its own effect and return value.

A component operation does exactly that operation (R57, R59, R311; O51 to O56 state what each does). `push` and `pop`
are refused on an ill-formed SP (U19; log 7, DEDUCED). `step()` and `continueExecution()` put the Debugger in progress
and have not returned yet (R241); the cancellation request is set (R226); a fresh Debugger is halted with no breakpoint
(R240); the breakpoint test at PC changes nothing (R253). `runScheduler` is `RunEntryStartsBothClocks`, the breakpoint
calls are `BreakpointOperationsAreSetOperations`, the two inspections `InspectionReadsWithoutChanging`.

The model's choices: that the calls wait in a queue, that their return values are kept and what `rawView` answers
(log 8), that `setKey` has no effect on the core's State (log 26), that `getPixel` is free outside the display and on
an oracle Display (log 12), all DESIGN CHOICE; the pixels of the reference Display (log 25, PRESUMED). -/
def Obligations.TheInterpreterStandsStillBetweenCalls : Prop :=
  ∀ s : State, s.turn = .host → (s.hostCalls = [] → step s = .next s) ∧ ∀ rest : List HostCall,
    (∀ c t, s.hostCalls = c :: rest → step s = .next t →
      t.hostCalls = rest ∧ t.calls = s.calls ∧ t.waiting = s.waiting ∧
      (writesInterpreter c = false → SameInterpreter s t)) ∧
    (s.hostCalls = .interpreterReset :: rest → step s = .next (Returned s.interpreterReset rest .done)) ∧
    (s.hostCalls = .memoryReset :: rest → step s = .next (Returned s.memoryReset rest .done)) ∧
    (s.hostCalls = .registerReset :: rest → step s = .next (Returned s.registerReset rest .done)) ∧
    (s.hostCalls = .stackReset :: rest → step s = .next (Returned s.stackReset rest .done)) ∧
    (∀ bytes, s.hostCalls = .loadProgram bytes :: rest → step s =
      .next (Returned (s.loadProgram bytes).2 rest (.flag (s.loadProgram bytes).1))) ∧
    (∀ g, s.hostCalls = .loadGlyphTable g :: rest → step s = .next (Returned (s.loadGlyphTable g) rest .done) ∧
      s.loadGlyphTable g = { s with mem := (s.loadGlyphTable g).mem } ∧
      (Memory.wf s.config.glyph s.mem → ∀ a, (s.loadGlyphTable g).readByte a =
        if h : a < 80 then some g[a] else s.readByte a)) ∧
    (∀ a, s.hostCalls = .readByte a :: rest → step s =
      .next (Returned s rest (match s.readByte a with | some b => .byte b | none => .absent))) ∧
    (∀ a, s.hostCalls = .readWord a :: rest → step s =
      .next (Returned s rest (match s.readWord a with | some w => .word w | none => .absent))) ∧
    (∀ a b, s.hostCalls = .writeByte a b :: rest → step s =
      .next (Returned (s.writeByte a b).2 rest (.flag (s.writeByte a b).1))) ∧
    (∀ a w, s.hostCalls = .writeWord a w :: rest → step s =
      .next (Returned (s.writeWord a w).2 rest (.flag (s.writeWord a w).1))) ∧
    (s.hostCalls = .rawView :: rest → ∃ bs, step s = .next (Returned s rest (.bytes bs)) ∧ bs.length = 4096 ∧
      ∀ k, k < 4096 → bs[k]? = s.readByte k) ∧
    (∀ a, s.hostCalls = .push a :: rest →
      (s.sp.toNat ≤ 16 → step s = .next (Returned (s.push a).2 rest (.flag (s.push a).1))) ∧
      (16 < s.sp.toNat → step s = .refused .illFormedStackPointer)) ∧
    (s.hostCalls = .pop :: rest →
      (s.sp.toNat ≤ 16 → step s =
        .next (Returned s.pop.2 rest (match s.pop.1 with | some w => .word w | none => .popFailed))) ∧
      (16 < s.sp.toNat → step s = .refused .illFormedStackPointer)) ∧
    (s.hostCalls = .debuggerStep :: rest → step s = .next { s with hostCalls := rest, control := .stepping }) ∧
    (s.hostCalls = .continueExecution :: rest → step s =
      .next { s with hostCalls := rest, control := .continuing }) ∧
    (s.hostCalls = .setCancelRequested :: rest → step s =
      .next (Returned { s with cancelRequested := true } rest .done)) ∧
    (s.hostCalls = .constructDebugger :: rest → step s =
      .next (Returned { s with bp := [], control := .halted } rest .done)) ∧
    (s.hostCalls = .isAtBreakpoint :: rest → step s = .next (Returned s rest (.flag (decide (s.pc ∈ s.bp))))) ∧
    (∀ k p, s.hostCalls = .setKey k p :: rest → step s = .next (Returned s rest .done)) ∧
    ∀ col row, s.hostCalls = .getPixel col row :: rest →
      (s.config.display = .absent → step s = .next (Returned s rest .absent)) ∧
      (s.config.display = .reference → col < s.config.displayW → row < s.config.displayH → step s =
        .next (Returned s rest (.flag (decide (row * s.config.displayW + col ∈ s.pixels))))) ∧
      (s.config.display ≠ .absent → ∃ b d, step s = .next (Returned { s with draws := d } rest (.flag b)))
end

