-- ==== Sys2Proof/Laws/State.lean ====
section
/-! SUPPORT. What each named update of the state does to each field: one lemma per field per update, so that no later
proof unfolds a record update. -/

namespace Sys2Proof.Machine

variable (s : State)

/-! ### Writing a general register -/

@[simp] theorem setV_v (k : Reg) (b : Byte) : (s.setV k b).v = s.v.set k b := rfl
@[simp] theorem setV_pc (k : Reg) (b : Byte) : (s.setV k b).pc = s.pc := rfl
@[simp] theorem setV_i (k : Reg) (b : Byte) : (s.setV k b).i = s.i := rfl
@[simp] theorem setV_sp (k : Reg) (b : Byte) : (s.setV k b).sp = s.sp := rfl
@[simp] theorem setV_dt (k : Reg) (b : Byte) : (s.setV k b).dt = s.dt := rfl
@[simp] theorem setV_st (k : Reg) (b : Byte) : (s.setV k b).st = s.st := rfl
@[simp] theorem setV_stack (k : Reg) (b : Byte) : (s.setV k b).stack = s.stack := rfl
@[simp] theorem setV_mem (k : Reg) (b : Byte) : (s.setV k b).mem = s.mem := rfl
@[simp] theorem setV_bp (k : Reg) (b : Byte) : (s.setV k b).bp = s.bp := rfl
@[simp] theorem setV_control (k : Reg) (b : Byte) : (s.setV k b).control = s.control := rfl
@[simp] theorem setV_runState (k : Reg) (b : Byte) : (s.setV k b).runState = s.runState := rfl
@[simp] theorem setV_tCycle (k : Reg) (b : Byte) : (s.setV k b).tCycle = s.tCycle := rfl
@[simp] theorem setV_tTimer (k : Reg) (b : Byte) : (s.setV k b).tTimer = s.tTimer := rfl
@[simp] theorem setV_now (k : Reg) (b : Byte) : (s.setV k b).now = s.now := rfl
@[simp] theorem setV_cancelRequested (k : Reg) (b : Byte) : (s.setV k b).cancelRequested = s.cancelRequested := rfl
@[simp] theorem setV_waiting (k : Reg) (b : Byte) : (s.setV k b).waiting = s.waiting := rfl
@[simp] theorem setV_pixels (k : Reg) (b : Byte) : (s.setV k b).pixels = s.pixels := rfl
@[simp] theorem setV_calls (k : Reg) (b : Byte) : (s.setV k b).calls = s.calls := rfl
@[simp] theorem setV_answers (k : Reg) (b : Byte) : (s.setV k b).answers = s.answers := rfl
@[simp] theorem setV_draws (k : Reg) (b : Byte) : (s.setV k b).draws = s.draws := rfl
@[simp] theorem setV_hostCalls (k : Reg) (b : Byte) : (s.setV k b).hostCalls = s.hostCalls := rfl
@[simp] theorem setV_hostReplies (k : Reg) (b : Byte) : (s.setV k b).hostReplies = s.hostReplies := rfl
@[simp] theorem setV_config (k : Reg) (b : Byte) : (s.setV k b).config = s.config := rfl

/-! ### Writing I -/

@[simp] theorem setI_v (w : Word) : (s.setI w).v = s.v := rfl
@[simp] theorem setI_pc (w : Word) : (s.setI w).pc = s.pc := rfl
@[simp] theorem setI_i (w : Word) : (s.setI w).i = w := rfl
@[simp] theorem setI_sp (w : Word) : (s.setI w).sp = s.sp := rfl
@[simp] theorem setI_dt (w : Word) : (s.setI w).dt = s.dt := rfl
@[simp] theorem setI_st (w : Word) : (s.setI w).st = s.st := rfl
@[simp] theorem setI_stack (w : Word) : (s.setI w).stack = s.stack := rfl
@[simp] theorem setI_mem (w : Word) : (s.setI w).mem = s.mem := rfl
@[simp] theorem setI_bp (w : Word) : (s.setI w).bp = s.bp := rfl
@[simp] theorem setI_control (w : Word) : (s.setI w).control = s.control := rfl
@[simp] theorem setI_runState (w : Word) : (s.setI w).runState = s.runState := rfl
@[simp] theorem setI_tCycle (w : Word) : (s.setI w).tCycle = s.tCycle := rfl
@[simp] theorem setI_tTimer (w : Word) : (s.setI w).tTimer = s.tTimer := rfl
@[simp] theorem setI_now (w : Word) : (s.setI w).now = s.now := rfl
@[simp] theorem setI_cancelRequested (w : Word) : (s.setI w).cancelRequested = s.cancelRequested := rfl
@[simp] theorem setI_waiting (w : Word) : (s.setI w).waiting = s.waiting := rfl
@[simp] theorem setI_pixels (w : Word) : (s.setI w).pixels = s.pixels := rfl
@[simp] theorem setI_calls (w : Word) : (s.setI w).calls = s.calls := rfl
@[simp] theorem setI_answers (w : Word) : (s.setI w).answers = s.answers := rfl
@[simp] theorem setI_draws (w : Word) : (s.setI w).draws = s.draws := rfl
@[simp] theorem setI_hostCalls (w : Word) : (s.setI w).hostCalls = s.hostCalls := rfl
@[simp] theorem setI_hostReplies (w : Word) : (s.setI w).hostReplies = s.hostReplies := rfl
@[simp] theorem setI_config (w : Word) : (s.setI w).config = s.config := rfl

/-! ### Writing DT -/

@[simp] theorem setDT_v (b : Byte) : (s.setDT b).v = s.v := rfl
@[simp] theorem setDT_pc (b : Byte) : (s.setDT b).pc = s.pc := rfl
@[simp] theorem setDT_i (b : Byte) : (s.setDT b).i = s.i := rfl
@[simp] theorem setDT_sp (b : Byte) : (s.setDT b).sp = s.sp := rfl
@[simp] theorem setDT_dt (b : Byte) : (s.setDT b).dt = b := rfl
@[simp] theorem setDT_st (b : Byte) : (s.setDT b).st = s.st := rfl
@[simp] theorem setDT_stack (b : Byte) : (s.setDT b).stack = s.stack := rfl
@[simp] theorem setDT_mem (b : Byte) : (s.setDT b).mem = s.mem := rfl
@[simp] theorem setDT_bp (b : Byte) : (s.setDT b).bp = s.bp := rfl
@[simp] theorem setDT_control (b : Byte) : (s.setDT b).control = s.control := rfl
@[simp] theorem setDT_runState (b : Byte) : (s.setDT b).runState = s.runState := rfl
@[simp] theorem setDT_tCycle (b : Byte) : (s.setDT b).tCycle = s.tCycle := rfl
@[simp] theorem setDT_tTimer (b : Byte) : (s.setDT b).tTimer = s.tTimer := rfl
@[simp] theorem setDT_now (b : Byte) : (s.setDT b).now = s.now := rfl
@[simp] theorem setDT_cancelRequested (b : Byte) : (s.setDT b).cancelRequested = s.cancelRequested := rfl
@[simp] theorem setDT_waiting (b : Byte) : (s.setDT b).waiting = s.waiting := rfl
@[simp] theorem setDT_pixels (b : Byte) : (s.setDT b).pixels = s.pixels := rfl
@[simp] theorem setDT_calls (b : Byte) : (s.setDT b).calls = s.calls := rfl
@[simp] theorem setDT_answers (b : Byte) : (s.setDT b).answers = s.answers := rfl
@[simp] theorem setDT_draws (b : Byte) : (s.setDT b).draws = s.draws := rfl
@[simp] theorem setDT_hostCalls (b : Byte) : (s.setDT b).hostCalls = s.hostCalls := rfl
@[simp] theorem setDT_hostReplies (b : Byte) : (s.setDT b).hostReplies = s.hostReplies := rfl
@[simp] theorem setDT_config (b : Byte) : (s.setDT b).config = s.config := rfl

/-! ### Writing ST -/

@[simp] theorem setST_v (b : Byte) : (s.setST b).v = s.v := rfl
@[simp] theorem setST_pc (b : Byte) : (s.setST b).pc = s.pc := rfl
@[simp] theorem setST_i (b : Byte) : (s.setST b).i = s.i := rfl
@[simp] theorem setST_sp (b : Byte) : (s.setST b).sp = s.sp := rfl
@[simp] theorem setST_dt (b : Byte) : (s.setST b).dt = s.dt := rfl
@[simp] theorem setST_st (b : Byte) : (s.setST b).st = b := rfl
@[simp] theorem setST_stack (b : Byte) : (s.setST b).stack = s.stack := rfl
@[simp] theorem setST_mem (b : Byte) : (s.setST b).mem = s.mem := rfl
@[simp] theorem setST_bp (b : Byte) : (s.setST b).bp = s.bp := rfl
@[simp] theorem setST_control (b : Byte) : (s.setST b).control = s.control := rfl
@[simp] theorem setST_runState (b : Byte) : (s.setST b).runState = s.runState := rfl
@[simp] theorem setST_tCycle (b : Byte) : (s.setST b).tCycle = s.tCycle := rfl
@[simp] theorem setST_tTimer (b : Byte) : (s.setST b).tTimer = s.tTimer := rfl
@[simp] theorem setST_now (b : Byte) : (s.setST b).now = s.now := rfl
@[simp] theorem setST_cancelRequested (b : Byte) : (s.setST b).cancelRequested = s.cancelRequested := rfl
@[simp] theorem setST_waiting (b : Byte) : (s.setST b).waiting = s.waiting := rfl
@[simp] theorem setST_pixels (b : Byte) : (s.setST b).pixels = s.pixels := rfl
@[simp] theorem setST_calls (b : Byte) : (s.setST b).calls = s.calls := rfl
@[simp] theorem setST_answers (b : Byte) : (s.setST b).answers = s.answers := rfl
@[simp] theorem setST_draws (b : Byte) : (s.setST b).draws = s.draws := rfl
@[simp] theorem setST_hostCalls (b : Byte) : (s.setST b).hostCalls = s.hostCalls := rfl
@[simp] theorem setST_hostReplies (b : Byte) : (s.setST b).hostReplies = s.hostReplies := rfl
@[simp] theorem setST_config (b : Byte) : (s.setST b).config = s.config := rfl

/-! ### The default advance -/

@[simp] theorem advance_v : (s.advance).v = s.v := rfl
@[simp] theorem advance_pc : (s.advance).pc = s.pc + 2 := rfl
@[simp] theorem advance_i : (s.advance).i = s.i := rfl
@[simp] theorem advance_sp : (s.advance).sp = s.sp := rfl
@[simp] theorem advance_dt : (s.advance).dt = s.dt := rfl
@[simp] theorem advance_st : (s.advance).st = s.st := rfl
@[simp] theorem advance_stack : (s.advance).stack = s.stack := rfl
@[simp] theorem advance_mem : (s.advance).mem = s.mem := rfl
@[simp] theorem advance_bp : (s.advance).bp = s.bp := rfl
@[simp] theorem advance_control : (s.advance).control = s.control := rfl
@[simp] theorem advance_runState : (s.advance).runState = s.runState := rfl
@[simp] theorem advance_tCycle : (s.advance).tCycle = s.tCycle := rfl
@[simp] theorem advance_tTimer : (s.advance).tTimer = s.tTimer := rfl
@[simp] theorem advance_now : (s.advance).now = s.now := rfl
@[simp] theorem advance_cancelRequested : (s.advance).cancelRequested = s.cancelRequested := rfl
@[simp] theorem advance_waiting : (s.advance).waiting = s.waiting := rfl
@[simp] theorem advance_pixels : (s.advance).pixels = s.pixels := rfl
@[simp] theorem advance_calls : (s.advance).calls = s.calls := rfl
@[simp] theorem advance_answers : (s.advance).answers = s.answers := rfl
@[simp] theorem advance_draws : (s.advance).draws = s.draws := rfl
@[simp] theorem advance_hostCalls : (s.advance).hostCalls = s.hostCalls := rfl
@[simp] theorem advance_hostReplies : (s.advance).hostReplies = s.hostReplies := rfl
@[simp] theorem advance_config : (s.advance).config = s.config := rfl

/-! ### The skip advance -/

@[simp] theorem skipIf_v (c : Bool) : (s.skipIf c).v = s.v := rfl
@[simp] theorem skipIf_pc (c : Bool) : (s.skipIf c).pc = s.pc + (if c then 4 else 2) := rfl
@[simp] theorem skipIf_i (c : Bool) : (s.skipIf c).i = s.i := rfl
@[simp] theorem skipIf_sp (c : Bool) : (s.skipIf c).sp = s.sp := rfl
@[simp] theorem skipIf_dt (c : Bool) : (s.skipIf c).dt = s.dt := rfl
@[simp] theorem skipIf_st (c : Bool) : (s.skipIf c).st = s.st := rfl
@[simp] theorem skipIf_stack (c : Bool) : (s.skipIf c).stack = s.stack := rfl
@[simp] theorem skipIf_mem (c : Bool) : (s.skipIf c).mem = s.mem := rfl
@[simp] theorem skipIf_bp (c : Bool) : (s.skipIf c).bp = s.bp := rfl
@[simp] theorem skipIf_control (c : Bool) : (s.skipIf c).control = s.control := rfl
@[simp] theorem skipIf_runState (c : Bool) : (s.skipIf c).runState = s.runState := rfl
@[simp] theorem skipIf_tCycle (c : Bool) : (s.skipIf c).tCycle = s.tCycle := rfl
@[simp] theorem skipIf_tTimer (c : Bool) : (s.skipIf c).tTimer = s.tTimer := rfl
@[simp] theorem skipIf_now (c : Bool) : (s.skipIf c).now = s.now := rfl
@[simp] theorem skipIf_cancelRequested (c : Bool) : (s.skipIf c).cancelRequested = s.cancelRequested := rfl
@[simp] theorem skipIf_waiting (c : Bool) : (s.skipIf c).waiting = s.waiting := rfl
@[simp] theorem skipIf_pixels (c : Bool) : (s.skipIf c).pixels = s.pixels := rfl
@[simp] theorem skipIf_calls (c : Bool) : (s.skipIf c).calls = s.calls := rfl
@[simp] theorem skipIf_answers (c : Bool) : (s.skipIf c).answers = s.answers := rfl
@[simp] theorem skipIf_draws (c : Bool) : (s.skipIf c).draws = s.draws := rfl
@[simp] theorem skipIf_hostCalls (c : Bool) : (s.skipIf c).hostCalls = s.hostCalls := rfl
@[simp] theorem skipIf_hostReplies (c : Bool) : (s.skipIf c).hostReplies = s.hostReplies := rfl
@[simp] theorem skipIf_config (c : Bool) : (s.skipIf c).config = s.config := rfl

/-! ### A direct set of PC -/

@[simp] theorem jump_v (w : Word) : (s.jump w).v = s.v := rfl
@[simp] theorem jump_pc (w : Word) : (s.jump w).pc = w := rfl
@[simp] theorem jump_i (w : Word) : (s.jump w).i = s.i := rfl
@[simp] theorem jump_sp (w : Word) : (s.jump w).sp = s.sp := rfl
@[simp] theorem jump_dt (w : Word) : (s.jump w).dt = s.dt := rfl
@[simp] theorem jump_st (w : Word) : (s.jump w).st = s.st := rfl
@[simp] theorem jump_stack (w : Word) : (s.jump w).stack = s.stack := rfl
@[simp] theorem jump_mem (w : Word) : (s.jump w).mem = s.mem := rfl
@[simp] theorem jump_bp (w : Word) : (s.jump w).bp = s.bp := rfl
@[simp] theorem jump_control (w : Word) : (s.jump w).control = s.control := rfl
@[simp] theorem jump_runState (w : Word) : (s.jump w).runState = s.runState := rfl
@[simp] theorem jump_tCycle (w : Word) : (s.jump w).tCycle = s.tCycle := rfl
@[simp] theorem jump_tTimer (w : Word) : (s.jump w).tTimer = s.tTimer := rfl
@[simp] theorem jump_now (w : Word) : (s.jump w).now = s.now := rfl
@[simp] theorem jump_cancelRequested (w : Word) : (s.jump w).cancelRequested = s.cancelRequested := rfl
@[simp] theorem jump_waiting (w : Word) : (s.jump w).waiting = s.waiting := rfl
@[simp] theorem jump_pixels (w : Word) : (s.jump w).pixels = s.pixels := rfl
@[simp] theorem jump_calls (w : Word) : (s.jump w).calls = s.calls := rfl
@[simp] theorem jump_answers (w : Word) : (s.jump w).answers = s.answers := rfl
@[simp] theorem jump_draws (w : Word) : (s.jump w).draws = s.draws := rfl
@[simp] theorem jump_hostCalls (w : Word) : (s.jump w).hostCalls = s.hostCalls := rfl
@[simp] theorem jump_hostReplies (w : Word) : (s.jump w).hostReplies = s.hostReplies := rfl
@[simp] theorem jump_config (w : Word) : (s.jump w).config = s.config := rfl

/-! ### The return advance -/

@[simp] theorem returnTo_v (w : Word) : (s.returnTo w).v = s.v := rfl
@[simp] theorem returnTo_pc (w : Word) : (s.returnTo w).pc = w + 2 := rfl
@[simp] theorem returnTo_i (w : Word) : (s.returnTo w).i = s.i := rfl
@[simp] theorem returnTo_sp (w : Word) : (s.returnTo w).sp = s.sp := rfl
@[simp] theorem returnTo_dt (w : Word) : (s.returnTo w).dt = s.dt := rfl
@[simp] theorem returnTo_st (w : Word) : (s.returnTo w).st = s.st := rfl
@[simp] theorem returnTo_stack (w : Word) : (s.returnTo w).stack = s.stack := rfl
@[simp] theorem returnTo_mem (w : Word) : (s.returnTo w).mem = s.mem := rfl
@[simp] theorem returnTo_bp (w : Word) : (s.returnTo w).bp = s.bp := rfl
@[simp] theorem returnTo_control (w : Word) : (s.returnTo w).control = s.control := rfl
@[simp] theorem returnTo_runState (w : Word) : (s.returnTo w).runState = s.runState := rfl
@[simp] theorem returnTo_tCycle (w : Word) : (s.returnTo w).tCycle = s.tCycle := rfl
@[simp] theorem returnTo_tTimer (w : Word) : (s.returnTo w).tTimer = s.tTimer := rfl
@[simp] theorem returnTo_now (w : Word) : (s.returnTo w).now = s.now := rfl
@[simp] theorem returnTo_cancelRequested (w : Word) : (s.returnTo w).cancelRequested = s.cancelRequested := rfl
@[simp] theorem returnTo_waiting (w : Word) : (s.returnTo w).waiting = s.waiting := rfl
@[simp] theorem returnTo_pixels (w : Word) : (s.returnTo w).pixels = s.pixels := rfl
@[simp] theorem returnTo_calls (w : Word) : (s.returnTo w).calls = s.calls := rfl
@[simp] theorem returnTo_answers (w : Word) : (s.returnTo w).answers = s.answers := rfl
@[simp] theorem returnTo_draws (w : Word) : (s.returnTo w).draws = s.draws := rfl
@[simp] theorem returnTo_hostCalls (w : Word) : (s.returnTo w).hostCalls = s.hostCalls := rfl
@[simp] theorem returnTo_hostReplies (w : Word) : (s.returnTo w).hostReplies = s.hostReplies := rfl
@[simp] theorem returnTo_config (w : Word) : (s.returnTo w).config = s.config := rfl

/-! ### Loading registers from memory -/

@[simp] theorem loadRegs_v (x : Reg) (a : Nat) : (s.loadRegs x a).v =
    Vector.ofFn (fun k : Reg => if k ≤ x then s.memRead (a + k.val) else s.getV k) := rfl
@[simp] theorem loadRegs_pc (x : Reg) (a : Nat) : (s.loadRegs x a).pc = s.pc := rfl
@[simp] theorem loadRegs_i (x : Reg) (a : Nat) : (s.loadRegs x a).i = s.i := rfl
@[simp] theorem loadRegs_sp (x : Reg) (a : Nat) : (s.loadRegs x a).sp = s.sp := rfl
@[simp] theorem loadRegs_dt (x : Reg) (a : Nat) : (s.loadRegs x a).dt = s.dt := rfl
@[simp] theorem loadRegs_st (x : Reg) (a : Nat) : (s.loadRegs x a).st = s.st := rfl
@[simp] theorem loadRegs_stack (x : Reg) (a : Nat) : (s.loadRegs x a).stack = s.stack := rfl
@[simp] theorem loadRegs_mem (x : Reg) (a : Nat) : (s.loadRegs x a).mem = s.mem := rfl
@[simp] theorem loadRegs_bp (x : Reg) (a : Nat) : (s.loadRegs x a).bp = s.bp := rfl
@[simp] theorem loadRegs_control (x : Reg) (a : Nat) : (s.loadRegs x a).control = s.control := rfl
@[simp] theorem loadRegs_runState (x : Reg) (a : Nat) : (s.loadRegs x a).runState = s.runState := rfl
@[simp] theorem loadRegs_tCycle (x : Reg) (a : Nat) : (s.loadRegs x a).tCycle = s.tCycle := rfl
@[simp] theorem loadRegs_tTimer (x : Reg) (a : Nat) : (s.loadRegs x a).tTimer = s.tTimer := rfl
@[simp] theorem loadRegs_now (x : Reg) (a : Nat) : (s.loadRegs x a).now = s.now := rfl
@[simp] theorem loadRegs_cancelRequested (x : Reg) (a : Nat) : (s.loadRegs x a).cancelRequested = s.cancelRequested := rfl
@[simp] theorem loadRegs_waiting (x : Reg) (a : Nat) : (s.loadRegs x a).waiting = s.waiting := rfl
@[simp] theorem loadRegs_pixels (x : Reg) (a : Nat) : (s.loadRegs x a).pixels = s.pixels := rfl
@[simp] theorem loadRegs_calls (x : Reg) (a : Nat) : (s.loadRegs x a).calls = s.calls := rfl
@[simp] theorem loadRegs_answers (x : Reg) (a : Nat) : (s.loadRegs x a).answers = s.answers := rfl
@[simp] theorem loadRegs_draws (x : Reg) (a : Nat) : (s.loadRegs x a).draws = s.draws := rfl
@[simp] theorem loadRegs_hostCalls (x : Reg) (a : Nat) : (s.loadRegs x a).hostCalls = s.hostCalls := rfl
@[simp] theorem loadRegs_hostReplies (x : Reg) (a : Nat) : (s.loadRegs x a).hostReplies = s.hostReplies := rfl
@[simp] theorem loadRegs_config (x : Reg) (a : Nat) : (s.loadRegs x a).config = s.config := rfl

/-! ### The memory reset -/

@[simp] theorem memoryReset_v : (s.memoryReset).v = s.v := rfl
@[simp] theorem memoryReset_pc : (s.memoryReset).pc = s.pc := rfl
@[simp] theorem memoryReset_i : (s.memoryReset).i = s.i := rfl
@[simp] theorem memoryReset_sp : (s.memoryReset).sp = s.sp := rfl
@[simp] theorem memoryReset_dt : (s.memoryReset).dt = s.dt := rfl
@[simp] theorem memoryReset_st : (s.memoryReset).st = s.st := rfl
@[simp] theorem memoryReset_stack : (s.memoryReset).stack = s.stack := rfl
@[simp] theorem memoryReset_mem : (s.memoryReset).mem = [] := rfl
@[simp] theorem memoryReset_bp : (s.memoryReset).bp = s.bp := rfl
@[simp] theorem memoryReset_control : (s.memoryReset).control = s.control := rfl
@[simp] theorem memoryReset_runState : (s.memoryReset).runState = s.runState := rfl
@[simp] theorem memoryReset_tCycle : (s.memoryReset).tCycle = s.tCycle := rfl
@[simp] theorem memoryReset_tTimer : (s.memoryReset).tTimer = s.tTimer := rfl
@[simp] theorem memoryReset_now : (s.memoryReset).now = s.now := rfl
@[simp] theorem memoryReset_cancelRequested : (s.memoryReset).cancelRequested = s.cancelRequested := rfl
@[simp] theorem memoryReset_waiting : (s.memoryReset).waiting = s.waiting := rfl
@[simp] theorem memoryReset_pixels : (s.memoryReset).pixels = s.pixels := rfl
@[simp] theorem memoryReset_calls : (s.memoryReset).calls = s.calls := rfl
@[simp] theorem memoryReset_answers : (s.memoryReset).answers = s.answers := rfl
@[simp] theorem memoryReset_draws : (s.memoryReset).draws = s.draws := rfl
@[simp] theorem memoryReset_hostCalls : (s.memoryReset).hostCalls = s.hostCalls := rfl
@[simp] theorem memoryReset_hostReplies : (s.memoryReset).hostReplies = s.hostReplies := rfl
@[simp] theorem memoryReset_config : (s.memoryReset).config = s.config := rfl

/-! ### The register reset -/

@[simp] theorem registerReset_v : (s.registerReset).v = Vector.replicate 16 0 := rfl
@[simp] theorem registerReset_pc : (s.registerReset).pc = programBase := rfl
@[simp] theorem registerReset_i : (s.registerReset).i = 0 := rfl
@[simp] theorem registerReset_sp : (s.registerReset).sp = 0 := rfl
@[simp] theorem registerReset_dt : (s.registerReset).dt = 0 := rfl
@[simp] theorem registerReset_st : (s.registerReset).st = 0 := rfl
@[simp] theorem registerReset_stack : (s.registerReset).stack = s.stack := rfl
@[simp] theorem registerReset_mem : (s.registerReset).mem = s.mem := rfl
@[simp] theorem registerReset_bp : (s.registerReset).bp = s.bp := rfl
@[simp] theorem registerReset_control : (s.registerReset).control = s.control := rfl
@[simp] theorem registerReset_runState : (s.registerReset).runState = s.runState := rfl
@[simp] theorem registerReset_tCycle : (s.registerReset).tCycle = s.tCycle := rfl
@[simp] theorem registerReset_tTimer : (s.registerReset).tTimer = s.tTimer := rfl
@[simp] theorem registerReset_now : (s.registerReset).now = s.now := rfl
@[simp] theorem registerReset_cancelRequested : (s.registerReset).cancelRequested = s.cancelRequested := rfl
@[simp] theorem registerReset_waiting : (s.registerReset).waiting = s.waiting := rfl
@[simp] theorem registerReset_pixels : (s.registerReset).pixels = s.pixels := rfl
@[simp] theorem registerReset_calls : (s.registerReset).calls = s.calls := rfl
@[simp] theorem registerReset_answers : (s.registerReset).answers = s.answers := rfl
@[simp] theorem registerReset_draws : (s.registerReset).draws = s.draws := rfl
@[simp] theorem registerReset_hostCalls : (s.registerReset).hostCalls = s.hostCalls := rfl
@[simp] theorem registerReset_hostReplies : (s.registerReset).hostReplies = s.hostReplies := rfl
@[simp] theorem registerReset_config : (s.registerReset).config = s.config := rfl

/-! ### The stack reset -/

@[simp] theorem stackReset_v : (s.stackReset).v = s.v := rfl
@[simp] theorem stackReset_pc : (s.stackReset).pc = s.pc := rfl
@[simp] theorem stackReset_i : (s.stackReset).i = s.i := rfl
@[simp] theorem stackReset_sp : (s.stackReset).sp = 0 := rfl
@[simp] theorem stackReset_dt : (s.stackReset).dt = s.dt := rfl
@[simp] theorem stackReset_st : (s.stackReset).st = s.st := rfl
@[simp] theorem stackReset_stack : (s.stackReset).stack = Vector.replicate 16 0 := rfl
@[simp] theorem stackReset_mem : (s.stackReset).mem = s.mem := rfl
@[simp] theorem stackReset_bp : (s.stackReset).bp = s.bp := rfl
@[simp] theorem stackReset_control : (s.stackReset).control = s.control := rfl
@[simp] theorem stackReset_runState : (s.stackReset).runState = s.runState := rfl
@[simp] theorem stackReset_tCycle : (s.stackReset).tCycle = s.tCycle := rfl
@[simp] theorem stackReset_tTimer : (s.stackReset).tTimer = s.tTimer := rfl
@[simp] theorem stackReset_now : (s.stackReset).now = s.now := rfl
@[simp] theorem stackReset_cancelRequested : (s.stackReset).cancelRequested = s.cancelRequested := rfl
@[simp] theorem stackReset_waiting : (s.stackReset).waiting = s.waiting := rfl
@[simp] theorem stackReset_pixels : (s.stackReset).pixels = s.pixels := rfl
@[simp] theorem stackReset_calls : (s.stackReset).calls = s.calls := rfl
@[simp] theorem stackReset_answers : (s.stackReset).answers = s.answers := rfl
@[simp] theorem stackReset_draws : (s.stackReset).draws = s.draws := rfl
@[simp] theorem stackReset_hostCalls : (s.stackReset).hostCalls = s.hostCalls := rfl
@[simp] theorem stackReset_hostReplies : (s.stackReset).hostReplies = s.hostReplies := rfl
@[simp] theorem stackReset_config : (s.stackReset).config = s.config := rfl

/-! ### Recording a call on a collaborator -/

@[simp] theorem record_v (c : CollabCall) : (s.record c).v = s.v := rfl
@[simp] theorem record_pc (c : CollabCall) : (s.record c).pc = s.pc := rfl
@[simp] theorem record_i (c : CollabCall) : (s.record c).i = s.i := rfl
@[simp] theorem record_sp (c : CollabCall) : (s.record c).sp = s.sp := rfl
@[simp] theorem record_dt (c : CollabCall) : (s.record c).dt = s.dt := rfl
@[simp] theorem record_st (c : CollabCall) : (s.record c).st = s.st := rfl
@[simp] theorem record_stack (c : CollabCall) : (s.record c).stack = s.stack := rfl
@[simp] theorem record_mem (c : CollabCall) : (s.record c).mem = s.mem := rfl
@[simp] theorem record_bp (c : CollabCall) : (s.record c).bp = s.bp := rfl
@[simp] theorem record_control (c : CollabCall) : (s.record c).control = s.control := rfl
@[simp] theorem record_runState (c : CollabCall) : (s.record c).runState = s.runState := rfl
@[simp] theorem record_tCycle (c : CollabCall) : (s.record c).tCycle = s.tCycle := rfl
@[simp] theorem record_tTimer (c : CollabCall) : (s.record c).tTimer = s.tTimer := rfl
@[simp] theorem record_now (c : CollabCall) : (s.record c).now = s.now := rfl
@[simp] theorem record_cancelRequested (c : CollabCall) : (s.record c).cancelRequested = s.cancelRequested := rfl
@[simp] theorem record_waiting (c : CollabCall) : (s.record c).waiting = s.waiting := rfl
@[simp] theorem record_pixels (c : CollabCall) : (s.record c).pixels = s.pixels := rfl
@[simp] theorem record_calls (c : CollabCall) : (s.record c).calls = c :: s.calls := rfl
@[simp] theorem record_answers (c : CollabCall) : (s.record c).answers = s.answers := rfl
@[simp] theorem record_draws (c : CollabCall) : (s.record c).draws = s.draws := rfl
@[simp] theorem record_hostCalls (c : CollabCall) : (s.record c).hostCalls = s.hostCalls := rfl
@[simp] theorem record_hostReplies (c : CollabCall) : (s.record c).hostReplies = s.hostReplies := rfl
@[simp] theorem record_config (c : CollabCall) : (s.record c).config = s.config := rfl

/-! ### Taking a free answer -/

@[simp] theorem countDraw_v : (s.countDraw).v = s.v := rfl
@[simp] theorem countDraw_pc : (s.countDraw).pc = s.pc := rfl
@[simp] theorem countDraw_i : (s.countDraw).i = s.i := rfl
@[simp] theorem countDraw_sp : (s.countDraw).sp = s.sp := rfl
@[simp] theorem countDraw_dt : (s.countDraw).dt = s.dt := rfl
@[simp] theorem countDraw_st : (s.countDraw).st = s.st := rfl
@[simp] theorem countDraw_stack : (s.countDraw).stack = s.stack := rfl
@[simp] theorem countDraw_mem : (s.countDraw).mem = s.mem := rfl
@[simp] theorem countDraw_bp : (s.countDraw).bp = s.bp := rfl
@[simp] theorem countDraw_control : (s.countDraw).control = s.control := rfl
@[simp] theorem countDraw_runState : (s.countDraw).runState = s.runState := rfl
@[simp] theorem countDraw_tCycle : (s.countDraw).tCycle = s.tCycle := rfl
@[simp] theorem countDraw_tTimer : (s.countDraw).tTimer = s.tTimer := rfl
@[simp] theorem countDraw_now : (s.countDraw).now = s.now := rfl
@[simp] theorem countDraw_cancelRequested : (s.countDraw).cancelRequested = s.cancelRequested := rfl
@[simp] theorem countDraw_waiting : (s.countDraw).waiting = s.waiting := rfl
@[simp] theorem countDraw_pixels : (s.countDraw).pixels = s.pixels := rfl
@[simp] theorem countDraw_calls : (s.countDraw).calls = s.calls := rfl
@[simp] theorem countDraw_answers : (s.countDraw).answers = s.answers := rfl
@[simp] theorem countDraw_draws : (s.countDraw).draws = s.draws + 1 := rfl
@[simp] theorem countDraw_hostCalls : (s.countDraw).hostCalls = s.hostCalls := rfl
@[simp] theorem countDraw_hostReplies : (s.countDraw).hostReplies = s.hostReplies := rfl
@[simp] theorem countDraw_config : (s.countDraw).config = s.config := rfl

/-! ### The timer tick -/

@[simp] theorem timerTick_v : (s.timerTick).v = s.v := rfl
@[simp] theorem timerTick_pc : (s.timerTick).pc = s.pc := rfl
@[simp] theorem timerTick_i : (s.timerTick).i = s.i := rfl
@[simp] theorem timerTick_sp : (s.timerTick).sp = s.sp := rfl
@[simp] theorem timerTick_dt : (s.timerTick).dt = decrementTimer s.dt := rfl
@[simp] theorem timerTick_st : (s.timerTick).st = decrementTimer s.st := rfl
@[simp] theorem timerTick_stack : (s.timerTick).stack = s.stack := rfl
@[simp] theorem timerTick_mem : (s.timerTick).mem = s.mem := rfl
@[simp] theorem timerTick_bp : (s.timerTick).bp = s.bp := rfl
@[simp] theorem timerTick_control : (s.timerTick).control = s.control := rfl
@[simp] theorem timerTick_runState : (s.timerTick).runState = s.runState := rfl
@[simp] theorem timerTick_tCycle : (s.timerTick).tCycle = s.tCycle := rfl
@[simp] theorem timerTick_tTimer : (s.timerTick).tTimer = s.tTimer := rfl
@[simp] theorem timerTick_now : (s.timerTick).now = s.now := rfl
@[simp] theorem timerTick_cancelRequested : (s.timerTick).cancelRequested = s.cancelRequested := rfl
@[simp] theorem timerTick_waiting : (s.timerTick).waiting = s.waiting := rfl
@[simp] theorem timerTick_pixels : (s.timerTick).pixels = s.pixels := rfl
@[simp] theorem timerTick_calls : (s.timerTick).calls = s.calls := rfl
@[simp] theorem timerTick_answers : (s.timerTick).answers = s.answers := rfl
@[simp] theorem timerTick_draws : (s.timerTick).draws = s.draws := rfl
@[simp] theorem timerTick_hostCalls : (s.timerTick).hostCalls = s.hostCalls := rfl
@[simp] theorem timerTick_hostReplies : (s.timerTick).hostReplies = s.hostReplies := rfl
@[simp] theorem timerTick_config : (s.timerTick).config = s.config := rfl

/-! ### The completion of a key wait -/

@[simp] theorem finishKeyWait_v (x : Reg) (b : Byte) : (s.finishKeyWait x b).v = s.v.set x b := rfl
@[simp] theorem finishKeyWait_pc (x : Reg) (b : Byte) : (s.finishKeyWait x b).pc = s.pc + 2 := rfl
@[simp] theorem finishKeyWait_i (x : Reg) (b : Byte) : (s.finishKeyWait x b).i = s.i := rfl
@[simp] theorem finishKeyWait_sp (x : Reg) (b : Byte) : (s.finishKeyWait x b).sp = s.sp := rfl
@[simp] theorem finishKeyWait_dt (x : Reg) (b : Byte) : (s.finishKeyWait x b).dt = s.dt := rfl
@[simp] theorem finishKeyWait_st (x : Reg) (b : Byte) : (s.finishKeyWait x b).st = s.st := rfl
@[simp] theorem finishKeyWait_stack (x : Reg) (b : Byte) : (s.finishKeyWait x b).stack = s.stack := rfl
@[simp] theorem finishKeyWait_mem (x : Reg) (b : Byte) : (s.finishKeyWait x b).mem = s.mem := rfl
@[simp] theorem finishKeyWait_bp (x : Reg) (b : Byte) : (s.finishKeyWait x b).bp = s.bp := rfl
@[simp] theorem finishKeyWait_control (x : Reg) (b : Byte) : (s.finishKeyWait x b).control = s.control := rfl
@[simp] theorem finishKeyWait_runState (x : Reg) (b : Byte) : (s.finishKeyWait x b).runState = s.runState := rfl
@[simp] theorem finishKeyWait_tCycle (x : Reg) (b : Byte) : (s.finishKeyWait x b).tCycle = s.tCycle := rfl
@[simp] theorem finishKeyWait_tTimer (x : Reg) (b : Byte) : (s.finishKeyWait x b).tTimer = s.tTimer := rfl
@[simp] theorem finishKeyWait_now (x : Reg) (b : Byte) : (s.finishKeyWait x b).now = s.now := rfl
@[simp] theorem finishKeyWait_cancelRequested (x : Reg) (b : Byte) : (s.finishKeyWait x b).cancelRequested = s.cancelRequested := rfl
@[simp] theorem finishKeyWait_waiting (x : Reg) (b : Byte) : (s.finishKeyWait x b).waiting = false := rfl
@[simp] theorem finishKeyWait_pixels (x : Reg) (b : Byte) : (s.finishKeyWait x b).pixels = s.pixels := rfl
@[simp] theorem finishKeyWait_calls (x : Reg) (b : Byte) : (s.finishKeyWait x b).calls = s.calls := rfl
@[simp] theorem finishKeyWait_answers (x : Reg) (b : Byte) : (s.finishKeyWait x b).answers = s.answers := rfl
@[simp] theorem finishKeyWait_draws (x : Reg) (b : Byte) : (s.finishKeyWait x b).draws = s.draws := rfl
@[simp] theorem finishKeyWait_hostCalls (x : Reg) (b : Byte) : (s.finishKeyWait x b).hostCalls = s.hostCalls := rfl
@[simp] theorem finishKeyWait_hostReplies (x : Reg) (b : Byte) : (s.finishKeyWait x b).hostReplies = s.hostReplies := rfl
@[simp] theorem finishKeyWait_config (x : Reg) (b : Byte) : (s.finishKeyWait x b).config = s.config := rfl

/-! ### A host call's return -/

@[simp] theorem reply_v (r : HostReply) : (s.reply r).v = s.v := rfl
@[simp] theorem reply_pc (r : HostReply) : (s.reply r).pc = s.pc := rfl
@[simp] theorem reply_i (r : HostReply) : (s.reply r).i = s.i := rfl
@[simp] theorem reply_sp (r : HostReply) : (s.reply r).sp = s.sp := rfl
@[simp] theorem reply_dt (r : HostReply) : (s.reply r).dt = s.dt := rfl
@[simp] theorem reply_st (r : HostReply) : (s.reply r).st = s.st := rfl
@[simp] theorem reply_stack (r : HostReply) : (s.reply r).stack = s.stack := rfl
@[simp] theorem reply_mem (r : HostReply) : (s.reply r).mem = s.mem := rfl
@[simp] theorem reply_bp (r : HostReply) : (s.reply r).bp = s.bp := rfl
@[simp] theorem reply_control (r : HostReply) : (s.reply r).control = s.control := rfl
@[simp] theorem reply_runState (r : HostReply) : (s.reply r).runState = s.runState := rfl
@[simp] theorem reply_tCycle (r : HostReply) : (s.reply r).tCycle = s.tCycle := rfl
@[simp] theorem reply_tTimer (r : HostReply) : (s.reply r).tTimer = s.tTimer := rfl
@[simp] theorem reply_now (r : HostReply) : (s.reply r).now = s.now := rfl
@[simp] theorem reply_cancelRequested (r : HostReply) : (s.reply r).cancelRequested = s.cancelRequested := rfl
@[simp] theorem reply_waiting (r : HostReply) : (s.reply r).waiting = s.waiting := rfl
@[simp] theorem reply_pixels (r : HostReply) : (s.reply r).pixels = s.pixels := rfl
@[simp] theorem reply_calls (r : HostReply) : (s.reply r).calls = s.calls := rfl
@[simp] theorem reply_answers (r : HostReply) : (s.reply r).answers = s.answers := rfl
@[simp] theorem reply_draws (r : HostReply) : (s.reply r).draws = s.draws := rfl
@[simp] theorem reply_hostCalls (r : HostReply) : (s.reply r).hostCalls = s.hostCalls := rfl
@[simp] theorem reply_hostReplies (r : HostReply) : (s.reply r).hostReplies = r :: s.hostReplies := rfl
@[simp] theorem reply_config (r : HostReply) : (s.reply r).config = s.config := rfl

/-! ### The return of the run loop -/

@[simp] theorem stopRun_v : (s.stopRun).v = s.v := rfl
@[simp] theorem stopRun_pc : (s.stopRun).pc = s.pc := rfl
@[simp] theorem stopRun_i : (s.stopRun).i = s.i := rfl
@[simp] theorem stopRun_sp : (s.stopRun).sp = s.sp := rfl
@[simp] theorem stopRun_dt : (s.stopRun).dt = s.dt := rfl
@[simp] theorem stopRun_st : (s.stopRun).st = s.st := rfl
@[simp] theorem stopRun_stack : (s.stopRun).stack = s.stack := rfl
@[simp] theorem stopRun_mem : (s.stopRun).mem = s.mem := rfl
@[simp] theorem stopRun_bp : (s.stopRun).bp = s.bp := rfl
@[simp] theorem stopRun_control : (s.stopRun).control = s.control := rfl
@[simp] theorem stopRun_runState : (s.stopRun).runState = .stopped := rfl
@[simp] theorem stopRun_tCycle : (s.stopRun).tCycle = s.tCycle := rfl
@[simp] theorem stopRun_tTimer : (s.stopRun).tTimer = s.tTimer := rfl
@[simp] theorem stopRun_now : (s.stopRun).now = s.now := rfl
@[simp] theorem stopRun_cancelRequested : (s.stopRun).cancelRequested = s.cancelRequested := rfl
@[simp] theorem stopRun_waiting : (s.stopRun).waiting = s.waiting := rfl
@[simp] theorem stopRun_pixels : (s.stopRun).pixels = s.pixels := rfl
@[simp] theorem stopRun_calls : (s.stopRun).calls = s.calls := rfl
@[simp] theorem stopRun_answers : (s.stopRun).answers = s.answers := rfl
@[simp] theorem stopRun_draws : (s.stopRun).draws = s.draws := rfl
@[simp] theorem stopRun_hostCalls : (s.stopRun).hostCalls = s.hostCalls := rfl
@[simp] theorem stopRun_hostReplies : (s.stopRun).hostReplies = .done :: s.hostReplies := rfl
@[simp] theorem stopRun_config : (s.stopRun).config = s.config := rfl

/-! ### The return of a Debugger call -/

@[simp] theorem endDebug_v (o : DebugOutcome) : (s.endDebug o).v = s.v := rfl
@[simp] theorem endDebug_pc (o : DebugOutcome) : (s.endDebug o).pc = s.pc := rfl
@[simp] theorem endDebug_i (o : DebugOutcome) : (s.endDebug o).i = s.i := rfl
@[simp] theorem endDebug_sp (o : DebugOutcome) : (s.endDebug o).sp = s.sp := rfl
@[simp] theorem endDebug_dt (o : DebugOutcome) : (s.endDebug o).dt = s.dt := rfl
@[simp] theorem endDebug_st (o : DebugOutcome) : (s.endDebug o).st = s.st := rfl
@[simp] theorem endDebug_stack (o : DebugOutcome) : (s.endDebug o).stack = s.stack := rfl
@[simp] theorem endDebug_mem (o : DebugOutcome) : (s.endDebug o).mem = s.mem := rfl
@[simp] theorem endDebug_bp (o : DebugOutcome) : (s.endDebug o).bp = s.bp := rfl
@[simp] theorem endDebug_control (o : DebugOutcome) : (s.endDebug o).control = .halted := rfl
@[simp] theorem endDebug_runState (o : DebugOutcome) : (s.endDebug o).runState = s.runState := rfl
@[simp] theorem endDebug_tCycle (o : DebugOutcome) : (s.endDebug o).tCycle = s.tCycle := rfl
@[simp] theorem endDebug_tTimer (o : DebugOutcome) : (s.endDebug o).tTimer = s.tTimer := rfl
@[simp] theorem endDebug_now (o : DebugOutcome) : (s.endDebug o).now = s.now := rfl
@[simp] theorem endDebug_cancelRequested (o : DebugOutcome) : (s.endDebug o).cancelRequested = s.cancelRequested := rfl
@[simp] theorem endDebug_waiting (o : DebugOutcome) : (s.endDebug o).waiting = s.waiting := rfl
@[simp] theorem endDebug_pixels (o : DebugOutcome) : (s.endDebug o).pixels = s.pixels := rfl
@[simp] theorem endDebug_calls (o : DebugOutcome) : (s.endDebug o).calls = s.calls := rfl
@[simp] theorem endDebug_answers (o : DebugOutcome) : (s.endDebug o).answers = s.answers := rfl
@[simp] theorem endDebug_draws (o : DebugOutcome) : (s.endDebug o).draws = s.draws := rfl
@[simp] theorem endDebug_hostCalls (o : DebugOutcome) : (s.endDebug o).hostCalls = s.hostCalls := rfl
@[simp] theorem endDebug_hostReplies (o : DebugOutcome) : (s.endDebug o).hostReplies = .outcome o :: s.hostReplies := rfl
@[simp] theorem endDebug_config (o : DebugOutcome) : (s.endDebug o).config = s.config := rfl

end Sys2Proof.Machine
end

