-- ==== Sys2Proof/Laws/Registers.lean ====
section
/-! SUPPORT. Laws of the general registers, of the result and flag writes, and of the return stack (spec/10_state.md
R20, R30 to R33, spec/43_alu.md R155). -/

namespace Sys2Proof.Machine

/-! ### General registers -/

theorem getV_setV (s : State) (x k : Reg) (b : Byte) :
    (s.setV x b).getV k = if k = x then b else s.getV k := by
  simp only [State.getV, State.setV, Fin.getElem_fin, Vector.getElem_set, Fin.ext_iff, eq_comm]

@[simp] theorem getV_setV_same (s : State) (x : Reg) (b : Byte) : (s.setV x b).getV x = b := by
  simp [getV_setV]

theorem getV_congr {s t : State} (h : t.v = s.v) (k : Reg) : t.getV k = s.getV k := by
  simp only [State.getV, h]

@[simp] theorem getV_advance (s : State) (k : Reg) : s.advance.getV k = s.getV k := rfl
@[simp] theorem getV_skipIf (s : State) (c : Bool) (k : Reg) : (s.skipIf c).getV k = s.getV k := rfl
@[simp] theorem getV_jump (s : State) (w : Word) (k : Reg) : (s.jump w).getV k = s.getV k := rfl
@[simp] theorem getV_returnTo (s : State) (w : Word) (k : Reg) : (s.returnTo w).getV k = s.getV k := rfl
@[simp] theorem getV_setI (s : State) (w : Word) (k : Reg) : (s.setI w).getV k = s.getV k := rfl
@[simp] theorem getV_setDT (s : State) (b : Byte) (k : Reg) : (s.setDT b).getV k = s.getV k := rfl
@[simp] theorem getV_setST (s : State) (b : Byte) (k : Reg) : (s.setST b).getV k = s.getV k := rfl
@[simp] theorem getV_record (s : State) (c : CollabCall) (k : Reg) : (s.record c).getV k = s.getV k := rfl
@[simp] theorem getV_countDraw (s : State) (k : Reg) : s.countDraw.getV k = s.getV k := rfl

/-- Two register files that read alike are the same. -/
theorem v_ext {a b : Vector Byte 16} (h : ∀ k : Reg, a[k] = b[k]) : a = b := by
  ext i hi : 1
  exact h ⟨i, hi⟩

theorem getV_loadRegs (s : State) (x : Reg) (a : Nat) (k : Reg) :
    (s.loadRegs x a).getV k = if k ≤ x then s.memRead (a + k.val) else s.getV k := by
  simp [State.getV, State.loadRegs]

@[simp] theorem regsUpTo_length (s : State) (x : Reg) : (s.regsUpTo x).length = x.val + 1 := by
  simp [State.regsUpTo]

theorem regsUpTo_getElem? (s : State) (x k : Reg) (h : k ≤ x) : (s.regsUpTo x)[k.val]? = some (s.getV k) := by
  have hk := k.isLt
  have hle : k.val ≤ x.val := h
  simp [State.regsUpTo, State.getV, Nat.lt_succ_of_le hle]

/-- The one spec of `write_result_and_flag` (R155): which registers hold what afterwards. -/
theorem getV_writeResultAndFlag (s : State) (x : Reg) (r : Byte) (f : Bool) (k : Reg) :
    (s.writeResultAndFlag x r f).getV k =
      if k = regVF then (if x = regVF ∧ s.config.vfOrder = .resultLast then r else flagByte f)
      else if k = x then r else s.getV k := by
  unfold State.writeResultAndFlag
  cases s.config.vfOrder <;> simp only [getV_setV] <;> by_cases h : k = regVF <;> by_cases h' : k = x <;>
    simp_all [eq_comm]

/-- `write_result_and_flag` writes registers only. -/
theorem writeResultAndFlag_only (s : State) (x : Reg) (r : Byte) (f : Bool) :
    s.writeResultAndFlag x r f = { s with v := (s.writeResultAndFlag x r f).v } := by
  unfold State.writeResultAndFlag
  cases s.config.vfOrder <;> rfl

/-! ### The results and flags as numbers (R154) -/

theorem toNat_addByte (a b : Byte) : (addByte a b).toNat = (a.toNat + b.toNat) % 256 := by
  simp [addByte]

theorem toNat_subByte (a b : Byte) : (subByte a b).toNat = (a.toNat + 256 - b.toNat) % 256 := by
  simp [subByte]

theorem toNat_shrByte (a : Byte) : (shrByte a).toNat = a.toNat / 2 := by
  have := a.isLt
  simp [shrByte]
  omega

theorem toNat_shlByte (a : Byte) : (shlByte a).toNat = (a.toNat * 2) % 256 := by
  simp [shlByte]

theorem toNat_flagByte (f : Bool) : (flagByte f).toNat = if f then 1 else 0 := by
  cases f <;> rfl

/-! ### The stack -/

/-- What `push` can do (R31). -/
theorem push_cases (s : State) (a : Word) :
    (∃ h : s.sp.toNat < 16,
        s.push a = (true, { s with stack := s.stack.set s.sp.toNat a h, sp := s.sp + 1 })) ∨
      (16 ≤ s.sp.toNat ∧ s.push a = (false, s)) := by
  by_cases h : s.sp.toNat < 16
  · refine .inl ⟨h, ?_⟩
    simp [State.push, State.setSlot, stackDepth, h]
  · exact .inr ⟨by omega, by simp [State.push, stackDepth, h]⟩

/-- What `pop` can do (R32). -/
theorem pop_cases (s : State) :
    (s.sp = 0 ∧ s.pop = (none, s)) ∨
      (s.sp ≠ 0 ∧ s.pop = (some (s.slot (s.sp.toNat - 1)), { s with sp := s.sp - 1 })) := by
  by_cases h : s.sp = 0
  · exact .inl ⟨h, by simp [State.pop, h]⟩
  · exact .inr ⟨h, by simp only [State.pop, h, if_false]⟩

theorem stackOk_iff (s : State) : s.stackOk = true ↔ s.sp.toNat ≤ 16 := by
  unfold State.stackOk stackDepth
  exact decide_eq_true_iff

end Sys2Proof.Machine
end

