-- ==== Sys2Proof/Laws/Collaborators.lean ====
section
/-! SUPPORT. What an answer from outside can change (spec/45_timer_key_display.md R200, R201), and the pixels of the
reference Display (R204). -/

namespace Sys2Proof.Machine

/-! ### Every answer changes the settled answers and the count of free answers only -/

theorem drawByte_only (s : State) :
    s.drawByte.2 = { s with answers := s.drawByte.2.answers, draws := s.drawByte.2.draws } := by
  unfold State.drawByte; split <;> rfl

theorem answerCollision_only (s : State) :
    s.answerCollision.2 = { s with answers := s.answerCollision.2.answers, draws := s.answerCollision.2.draws } := by
  unfold State.answerCollision; split <;> rfl

theorem answerKeyDown_only (s : State) (k : Byte) :
    (s.answerKeyDown k).2 =
      { s with answers := (s.answerKeyDown k).2.answers, draws := (s.answerKeyDown k).2.draws } := by
  unfold State.answerKeyDown; split <;> rfl

theorem answerKey_only (s : State) :
    s.answerKey.2 = { s with answers := s.answerKey.2.answers, draws := s.answerKey.2.draws } := by
  unfold State.answerKey; split <;> rfl

theorem answerPoll_only (s : State) :
    s.answerPoll.2 = { s with answers := s.answerPoll.2.answers, draws := s.answerPoll.2.draws } := by
  unfold State.answerPoll; split <;> rfl

theorem answerCancel_only (s : State) :
    s.answerCancel.2 = { s with answers := s.answerCancel.2.answers, draws := s.answerCancel.2.draws } := by
  unfold State.answerCancel; split <;> rfl

theorem answerElapsed_only (s : State) :
    s.answerElapsed.2 = { s with answers := s.answerElapsed.2.answers, draws := s.answerElapsed.2.draws } := by
  unfold State.answerElapsed; split <;> rfl

theorem keyPressed_only (s : State) (k : Byte) : OnlyAnswers s (s.keyPressed k).2 := by
  unfold OnlyAnswers State.keyPressed
  split
  · have := answerKeyDown_only s k
    simp only [State.record]
    rw [this]
  · rfl

/-- With no Input attached the key is "not pressed" and nothing changes (R193, R194). -/
theorem keyPressed_headless {s : State} (h : s.config.hasInput = false) (k : Byte) :
    s.keyPressed k = (false, s) := by
  simp [State.keyPressed, h]

/-- The clock never runs backwards (R222). -/
theorem sampleNow_mono (s : State) : s.now ≤ s.sampleNow.now := by
  simp only [State.sampleNow]
  have : (0 : Time) ≤ max 0 s.answerElapsed.1 := le_max_left _ _
  linarith

theorem sampleNow_only (s : State) :
    s.sampleNow = { s with now := s.sampleNow.now, answers := s.sampleNow.answers, draws := s.sampleNow.draws } := by
  have := answerElapsed_only s
  simp only [State.sampleNow]
  rw [this]

theorem sampleCancel_only (s : State) :
    s.sampleCancel = { s with
      answers := s.sampleCancel.answers
      draws := s.sampleCancel.draws
      cancelRequested := s.sampleCancel.cancelRequested } := by
  unfold State.sampleCancel
  split
  · rfl
  · have := answerCancel_only s
    simp only
    rw [this]

theorem pollInput_only (s : State) : OnlyAnswers s s.pollInput.2 := by
  unfold OnlyAnswers State.pollInput
  split
  · have := answerPoll_only s
    simp only [State.record]
    rw [this]
  · rfl

/-- The poll changes the settled answers, the count of free answers, the record of calls and `cancel_requested`. -/
theorem pollOpen_only (s : State) :
    s.pollOpen.2 = { s with
      answers := s.pollOpen.2.answers
      draws := s.pollOpen.2.draws
      calls := s.pollOpen.2.calls
      cancelRequested := s.pollOpen.2.cancelRequested } := by
  have hc := sampleCancel_only s
  unfold State.pollOpen
  split
  · simp only
    rw [hc]
  · have hp := pollInput_only s.sampleCancel
    rw [hp, hc]

/-- A cancelled run stays cancelled and does not poll the Input again (R226, R278 c). -/
theorem pollOpen_cancelled {s : State} (h : s.cancelRequested = true) : s.pollOpen = (false, s) := by
  have : s.sampleCancel = s := by simp [State.sampleCancel, h]
  simp [State.pollOpen, this, h]

/-! ### The Display -/

theorem displayRender_only (s : State) : s.displayRender = { s with calls := s.displayRender.calls } := by
  unfold State.displayRender; split <;> rfl

theorem displayClear_only (s : State) :
    s.displayClear = { s with calls := s.displayClear.calls, pixels := s.displayClear.pixels } := by
  unfold State.displayClear; split <;> rfl

theorem displayDraw_only (s : State) (px py : Byte) (rows : List Byte) (n : Nibble) :
    (s.displayDraw px py rows n).2 = { s with
      answers := (s.displayDraw px py rows n).2.answers
      draws := (s.displayDraw px py rows n).2.draws
      calls := (s.displayDraw px py rows n).2.calls
      pixels := (s.displayDraw px py rows n).2.pixels } := by
  unfold State.displayDraw
  split
  · rfl
  · have := answerCollision_only s
    simp only [State.record]
    rw [this]
  · rfl

theorem displayPixel_only (s : State) (col row : Nat) :
    (s.displayPixel col row).2 = { s with draws := (s.displayPixel col row).2.draws } := by
  unfold State.displayPixel
  split
  · rfl
  · rfl
  · split <;> rfl

/-! ### Pixels -/

theorem mem_togglePixel_or {p q : Nat} {l : List Nat} (h : q ∈ togglePixel p l) : q ∈ l ∨ q = p := by
  induction l with
  | nil => simp_all [togglePixel]
  | cons a l ih =>
    simp only [togglePixel] at h
    split at h
    · rcases List.mem_cons.1 h with h | h
      · simp [h]
      · rcases ih h with h | h <;> simp [h]
    · split at h
      · exact .inl (List.mem_cons_of_mem _ h)
      · rcases List.mem_cons.1 h with h | h <;> simp_all

/-- Toggling keeps the pixels strictly rising. -/
theorem togglePixel_sorted {p : Nat} {l : List Nat} (h : l.Pairwise (· < ·)) :
    (togglePixel p l).Pairwise (· < ·) := by
  induction l with
  | nil => simp [togglePixel]
  | cons a l ih =>
    rw [List.pairwise_cons] at h
    simp only [togglePixel]
    by_cases h1 : a < p
    · rw [if_pos h1, List.pairwise_cons]
      refine ⟨fun q hq => ?_, ih h.2⟩
      rcases mem_togglePixel_or hq with hq | rfl
      · exact h.1 q hq
      · exact h1
    · rw [if_neg h1]
      by_cases h2 : a = p
      · rw [if_pos h2]; exact h.2
      · rw [if_neg h2, List.pairwise_cons]
        refine ⟨fun q hq => ?_, List.pairwise_cons.2 h⟩
        rcases List.mem_cons.1 hq with rfl | hq
        · omega
        · exact Nat.lt_trans (by omega) (h.1 q hq)

/-- Toggling a pixel flips it and no other. -/
theorem mem_togglePixel {p q : Nat} {l : List Nat} (h : l.Pairwise (· < ·)) :
    q ∈ togglePixel p l ↔ (if q = p then q ∉ l else q ∈ l) := by
  induction l with
  | nil => simp [togglePixel]
  | cons a l ih =>
    rw [List.pairwise_cons] at h
    have ih := ih h.2
    simp only [togglePixel]
    by_cases h1 : a < p
    · rw [if_pos h1, List.mem_cons, ih]
      by_cases hq : q = p
      · subst hq
        simp [show q ≠ a by omega]
      · simp [hq]
    · rw [if_neg h1]
      by_cases h2 : a = p
      · rw [if_pos h2]
        subst h2
        by_cases hq : q = a
        · subst hq
          simp [show q ∉ l from fun hl => absurd (h.1 q hl) (Nat.lt_irrefl q)]
        · simp [hq]
      · rw [if_neg h2]
        by_cases hq : q = p
        · subst hq
          have : q ∉ l := fun hl => absurd (h.1 q hl) (by omega)
          simp [this, show q ≠ a by omega]
        · simp [hq]

theorem pixelIndex_lt {c : Config} (hw : 0 < c.displayW) (hh : 0 < c.displayH) (col row : Nat) :
    pixelIndex c col row < c.displayW * c.displayH := by
  unfold pixelIndex
  have h1 := Nat.mod_lt col hw
  have h2 := Nat.mod_lt row hh
  calc row % c.displayH * c.displayW + col % c.displayW
      < row % c.displayH * c.displayW + c.displayW := by omega
    _ = (row % c.displayH + 1) * c.displayW := by ring
    _ ≤ c.displayH * c.displayW := Nat.mul_le_mul_right _ h2
    _ = c.displayW * c.displayH := Nat.mul_comm _ _

/-- The pixels are strictly rising and inside the display. -/
abbrev pixelsOk (c : Config) (ps : List Nat) : Prop :=
  ps.Pairwise (· < ·) ∧ ∀ p ∈ ps, p < c.displayW * c.displayH

theorem drawPixel_ok {c : Config} (hw : 0 < c.displayW) (hh : 0 < c.displayH) (col row : Nat)
    {acc : Bool × List Nat} (h : pixelsOk c acc.2) : pixelsOk c (drawPixel c col row acc).2 := by
  refine ⟨togglePixel_sorted h.1, fun p hp => ?_⟩
  rcases mem_togglePixel_or hp with hp | rfl
  · exact h.2 p hp
  · exact pixelIndex_lt hw hh col row

theorem drawBits_ok {c : Config} (hw : 0 < c.displayW) (hh : 0 < c.displayH) (x0 row : Nat) (bits : List Bool) :
    ∀ (j : Nat) {acc : Bool × List Nat}, pixelsOk c acc.2 → pixelsOk c (drawBits c x0 row j bits acc).2 := by
  induction bits with
  | nil => exact fun _ _ h => h
  | cons b bits ih =>
    intro j acc h
    refine ih (j + 1) ?_
    cases b
    · exact h
    · exact drawPixel_ok hw hh _ _ h

theorem drawRows_ok {c : Config} (hw : 0 < c.displayW) (hh : 0 < c.displayH) (x0 : Nat) (rows : List Byte) :
    ∀ (row : Nat) {acc : Bool × List Nat}, pixelsOk c acc.2 → pixelsOk c (drawRows c x0 row rows acc).2 := by
  induction rows with
  | nil => exact fun _ _ h => h
  | cons b rows ih => exact fun row acc h => ih (row + 1) (drawBits_ok hw hh x0 row _ 0 h)

/-- Drawing keeps the reference Display's pixels canonical (R204). -/
theorem displayDraw_pixelsWf {s : State} (h : s.pixelsWf) (px py : Byte) (rows : List Byte) (n : Nibble) :
    (s.displayDraw px py rows n).2.pixelsWf := by
  have hc : (s.displayDraw px py rows n).2.config = s.config := by rw [displayDraw_only]
  have hp : pixelsOk s.config (s.displayDraw px py rows n).2.pixels := by
    unfold State.displayDraw
    split
    · exact h.2.2
    · have := answerCollision_only s
      simp only [State.record]
      rw [this]
      exact h.2.2
    · exact drawRows_ok h.1 h.2.1 _ _ _ h.2.2
  unfold State.pixelsWf
  rw [hc]
  exact ⟨h.1, h.2.1, hp⟩

end Sys2Proof.Machine
end

