-- ==== Sys2Proof/Laws/Decode.lean ====
section
/-! SUPPORT. The fields of an encoded word, format by format (spec/30_encoding.md R81, R82), and that no two rows of the
opcode map overlap. -/

namespace Sys2Proof

/-! ### Fields as numbers -/

theorem fieldTop_toNat (op : Word) : (fieldTop op).toNat = op.toNat / 4096 := by
  have := op.isLt
  simp only [fieldTop, BitVec.extractLsb'_toNat, Nat.shiftRight_eq_div_pow]
  omega

theorem fieldX_val (op : Word) : (fieldX op).val = op.toNat / 256 % 16 := by
  simp [fieldX, Nat.shiftRight_eq_div_pow]

theorem fieldY_val (op : Word) : (fieldY op).val = op.toNat / 16 % 16 := by
  simp [fieldY, Nat.shiftRight_eq_div_pow]

theorem fieldN_toNat (op : Word) : (fieldN op).toNat = op.toNat % 16 := by
  simp [fieldN, BitVec.extractLsb'_toNat]

theorem fieldNN_toNat (op : Word) : (fieldNN op).toNat = op.toNat % 256 := by
  simp [fieldNN, BitVec.extractLsb'_toNat]

theorem fieldNNN_toNat (op : Word) : (fieldNNN op).toNat = op.toNat % 4096 := by
  simp [fieldNNN, BitVec.extractLsb'_toNat]

/-! ### Encoded words as numbers -/

theorem encodeNNN_toNat (top : Nibble) (nnn : Addr12) :
    (encodeNNN top nnn).toNat = top.toNat * 4096 + nnn.toNat := by
  have := nnn.isLt
  rw [encodeNNN, BitVec.toNat_append, ← Nat.shiftLeft_add_eq_or_of_lt nnn.isLt, Nat.shiftLeft_eq]

theorem encodeXNN_toNat (top : Nibble) (x : Reg) (nn : Byte) :
    (encodeXNN top x nn).toNat = top.toNat * 4096 + x.val * 256 + nn.toNat := by
  rw [encodeXNN, BitVec.toNat_append, ← Nat.shiftLeft_add_eq_or_of_lt nn.isLt, BitVec.toNat_append,
    ← Nat.shiftLeft_add_eq_or_of_lt (regBits x).isLt, Nat.shiftLeft_eq, Nat.shiftLeft_eq]
  simp only [regBits, BitVec.toNat_ofFin]
  omega

theorem encodeXYN_toNat (top : Nibble) (x y : Reg) (n : Nibble) :
    (encodeXYN top x y n).toNat = top.toNat * 4096 + x.val * 256 + y.val * 16 + n.toNat := by
  rw [encodeXYN, word4, BitVec.toNat_append, ← Nat.shiftLeft_add_eq_or_of_lt n.isLt, BitVec.toNat_append,
    ← Nat.shiftLeft_add_eq_or_of_lt (regBits y).isLt, BitVec.toNat_append,
    ← Nat.shiftLeft_add_eq_or_of_lt (regBits x).isLt, Nat.shiftLeft_eq, Nat.shiftLeft_eq, Nat.shiftLeft_eq]
  simp only [regBits, BitVec.toNat_ofFin]
  omega

/-! ### Format NNN -/

@[simp] theorem fieldTop_encodeNNN (top : Nibble) (nnn : Addr12) : fieldTop (encodeNNN top nnn) = top := by
  apply BitVec.eq_of_toNat_eq
  have := nnn.isLt
  rw [fieldTop_toNat, encodeNNN_toNat]
  omega

@[simp] theorem fieldNNN_encodeNNN (top : Nibble) (nnn : Addr12) : fieldNNN (encodeNNN top nnn) = nnn := by
  apply BitVec.eq_of_toNat_eq
  have := nnn.isLt
  rw [fieldNNN_toNat, encodeNNN_toNat]
  omega

/-! ### Formats XNN and X -/

@[simp] theorem fieldTop_encodeXNN (top : Nibble) (x : Reg) (nn : Byte) : fieldTop (encodeXNN top x nn) = top := by
  apply BitVec.eq_of_toNat_eq
  have := nn.isLt
  rw [fieldTop_toNat, encodeXNN_toNat]
  omega

@[simp] theorem fieldX_encodeXNN (top : Nibble) (x : Reg) (nn : Byte) : fieldX (encodeXNN top x nn) = x := by
  apply Fin.ext
  have := nn.isLt
  rw [fieldX_val, encodeXNN_toNat]
  omega

@[simp] theorem fieldNN_encodeXNN (top : Nibble) (x : Reg) (nn : Byte) : fieldNN (encodeXNN top x nn) = nn := by
  apply BitVec.eq_of_toNat_eq
  have := nn.isLt
  rw [fieldNN_toNat, encodeXNN_toNat]
  omega

/-! ### Formats XY and XYN -/

@[simp] theorem fieldTop_encodeXYN (top : Nibble) (x y : Reg) (n : Nibble) : fieldTop (encodeXYN top x y n) = top := by
  apply BitVec.eq_of_toNat_eq
  have := n.isLt
  rw [fieldTop_toNat, encodeXYN_toNat]
  omega

@[simp] theorem fieldX_encodeXYN (top : Nibble) (x y : Reg) (n : Nibble) : fieldX (encodeXYN top x y n) = x := by
  apply Fin.ext
  have := n.isLt
  rw [fieldX_val, encodeXYN_toNat]
  omega

@[simp] theorem fieldY_encodeXYN (top : Nibble) (x y : Reg) (n : Nibble) : fieldY (encodeXYN top x y n) = y := by
  apply Fin.ext
  have := n.isLt
  rw [fieldY_val, encodeXYN_toNat]
  omega

@[simp] theorem fieldN_encodeXYN (top : Nibble) (x y : Reg) (n : Nibble) : fieldN (encodeXYN top x y n) = n := by
  apply BitVec.eq_of_toNat_eq
  have := n.isLt
  rw [fieldN_toNat, encodeXYN_toNat]
  omega

/-! ### A word and its bytes -/

@[simp] theorem wordOfBytes_hiByte_loByte (w : Word) : wordOfBytes (hiByte w) (loByte w) = w := by
  apply BitVec.eq_of_toNat_eq
  rw [wordOfBytes, BitVec.toNat_append, ← Nat.shiftLeft_add_eq_or_of_lt (loByte w).isLt, Nat.shiftLeft_eq]
  have := w.isLt
  simp only [hiByte, loByte, BitVec.extractLsb'_toNat, Nat.shiftRight_eq_div_pow]
  omega

theorem wordOfBytes_toNat (hi lo : Byte) : (wordOfBytes hi lo).toNat = 256 * hi.toNat + lo.toNat := by
  rw [wordOfBytes, BitVec.toNat_append, ← Nat.shiftLeft_add_eq_or_of_lt lo.isLt, Nat.shiftLeft_eq]
  omega

@[simp] theorem hiByte_wordOfBytes (hi lo : Byte) : hiByte (wordOfBytes hi lo) = hi := by
  apply BitVec.eq_of_toNat_eq
  have := lo.isLt
  have := hi.isLt
  simp only [hiByte, BitVec.extractLsb'_toNat, Nat.shiftRight_eq_div_pow, wordOfBytes_toNat]
  omega

@[simp] theorem loByte_wordOfBytes (hi lo : Byte) : loByte (wordOfBytes hi lo) = lo := by
  apply BitVec.eq_of_toNat_eq
  have := lo.isLt
  simp only [loByte, BitVec.extractLsb'_toNat, wordOfBytes_toNat]
  omega

/-! ### The masks of the opcode map as arithmetic -/

/-- A word is its four nibbles. -/
theorem word4_fields (op : Word) :
    word4 (fieldTop op) (op.extractLsb' 8 4) (op.extractLsb' 4 4) (fieldN op) = op := by
  have h : op = encodeXYN (fieldTop op) (fieldX op) (fieldY op) (fieldN op) := by
    apply BitVec.eq_of_toNat_eq
    rw [encodeXYN_toNat, fieldTop_toNat, fieldX_val, fieldY_val, fieldN_toNat]
    omega
  exact h.symm

theorem word4_and (a b c d a' b' c' d' : Nibble) :
    word4 a b c d &&& word4 a' b' c' d' = word4 (a &&& a') (b &&& b') (c &&& c') (d &&& d') := by
  unfold word4
  repeat rw [← BitVec.and_append]

theorem word4_toNat (a b c d : Nibble) :
    (word4 a b c d).toNat = a.toNat * 4096 + b.toNat * 256 + c.toNat * 16 + d.toNat := by
  have h := encodeXYN_toNat a b.toFin c.toFin d
  simpa [encodeXYN, regBits] using h

theorem and_nibble (a : Nibble) : a &&& 15#4 = a := BitVec.and_allOnes

/-- The mask of the rows that fix the top nibble only. -/
theorem and_F000_toNat (op : Word) : (op &&& 0xF000).toNat = op.toNat / 4096 * 4096 := by
  have h : op &&& 0xF000 = word4 (fieldTop op) 0 0 0 := by
    conv_lhs => rw [← word4_fields op, show (0xF000 : Word) = word4 0xF 0 0 0 from rfl, word4_and]
    simp [and_nibble]
  rw [h, word4_toNat, fieldTop_toNat]
  simp

/-- The mask of the rows that fix the top and the low nibble. -/
theorem and_F00F_toNat (op : Word) : (op &&& 0xF00F).toNat = op.toNat / 4096 * 4096 + op.toNat % 16 := by
  have h : op &&& 0xF00F = word4 (fieldTop op) 0 0 (fieldN op) := by
    conv_lhs => rw [← word4_fields op, show (0xF00F : Word) = word4 0xF 0 0 0xF from rfl, word4_and]
    simp [and_nibble]
  rw [h, word4_toNat, fieldTop_toNat, fieldN_toNat]
  simp

/-- The mask of the rows that fix the top nibble and the low byte. -/
theorem and_F0FF_toNat (op : Word) : (op &&& 0xF0FF).toNat = op.toNat / 4096 * 4096 + op.toNat % 256 := by
  have h : op &&& 0xF0FF = word4 (fieldTop op) 0 (op.extractLsb' 4 4) (fieldN op) := by
    conv_lhs => rw [← word4_fields op, show (0xF0FF : Word) = word4 0xF 0 0xF 0xF from rfl, word4_and]
    simp [and_nibble]
  have hy : (op.extractLsb' 4 4).toNat = op.toNat / 16 % 16 := fieldY_val op
  rw [h, word4_toNat, fieldTop_toNat, fieldN_toNat, hy]
  have h0 : (0 : Nibble).toNat = 0 := rfl
  omega

/-! ### The opcode map -/

/-- Two rows of the map differ in a bit that both of them fix (R86). -/
theorem opcodeRows_disjoint :
    opcodeRows.Pairwise (fun r r' => r.code &&& (r.mask &&& r'.mask) ≠ r'.code &&& (r.mask &&& r'.mask)) := by
  decide

end Sys2Proof
end

