-- ==== Sys2Proof/Laws/Memory.lean ====
section
/-! SUPPORT. Laws of memory: read after write, the canonical form, and the two layers over it (spec/20_memory.md R53
to R63, R68). -/

namespace Sys2Proof.Machine

/-! ### Memory as data -/

theorem lookup_eq_none_of_lt {m : Memory} {a : Nat} (h : ∀ c ∈ m, a < c.1) : Memory.lookup m a = none := by
  cases m with
  | nil => rfl
  | cons c rest =>
    have hc := h c (by simp)
    simp only [Memory.lookup]
    rw [if_neg (by omega), if_neg (by omega)]

/-- Read after write. -/
theorem get_put (g : GlyphTable) {m : Memory} (a : Nat) (v : Byte) (b : Nat)
    (h : m.Pairwise (fun c d => c.1 < d.1)) :
    Memory.get g (Memory.put g m a v) b = if b = a then v else Memory.get g m b := by
  unfold Memory.get
  induction m with
  | nil =>
    by_cases hb : b = a
    · subst hb
      simp only [Memory.put]
      split <;> simp_all [Memory.lookup]
    · simp only [Memory.put]
      split <;> simp [Memory.lookup, Ne.symm hb]
  | cons c rest ih =>
    obtain ⟨c, w⟩ := c
    rw [List.pairwise_cons] at h
    have ih := ih h.2
    have hlo : ∀ a, a ≤ c → Memory.lookup rest a = none :=
      fun a ha => lookup_eq_none_of_lt fun d hd => Nat.lt_of_le_of_lt ha (h.1 d hd)
    simp only [Memory.put]
    by_cases h1 : c < a
    · simp only [h1, if_true, Memory.lookup]
      by_cases h2 : c = b
      · simp [h2, show b ≠ a by omega]
      · by_cases h3 : c < b
        · simpa [h2, h3] using ih
        · simp [h2, h3, show b ≠ a by omega]
    · by_cases h2 : c = a
      · subst h2
        simp only [Nat.lt_irrefl, if_false, if_true]
        have hn := hlo c (Nat.le_refl c)
        by_cases hb : b = c
        · subst hb
          split <;> simp_all [Memory.lookup]
        · split
          · by_cases h3 : c < b
            · simp [Memory.lookup, h3, Ne.symm hb]
            · simp [Memory.lookup, h3, Ne.symm hb, hlo b (by omega)]
          · by_cases h3 : c < b <;> simp [Memory.lookup, h3, Ne.symm hb]
      · simp only [h1, h2, if_false]
        by_cases hb : b = a
        · subst hb
          split <;> simp_all [Memory.lookup]
        · split
          · simp
          · by_cases h3 : a < b
            · simp [Memory.lookup, h3, Ne.symm hb]
            · simp [Memory.lookup, h3, Ne.symm hb, show c ≠ b by omega, show ¬ c < b by omega]

theorem mem_put {g : GlyphTable} {m : Memory} {a : Nat} {v : Byte} {c : Host.Cell} (h : c ∈ Memory.put g m a v) :
    c ∈ m ∨ (c = (a, v) ∧ v ≠ fillByte g a) := by
  induction m with
  | nil =>
    simp only [Memory.put] at h
    split at h <;> simp_all
  | cons d rest ih =>
    simp only [Memory.put] at h
    split at h
    · rcases List.mem_cons.1 h with h | h
      · simp [h]
      · rcases ih h with h | h
        · simp [h]
        · exact .inr h
    · split at h <;> split at h <;> simp_all <;> tauto

/-- Every write keeps the canonical form. -/
theorem put_wf {g : GlyphTable} {m : Memory} (a : Nat) (v : Byte) (ha : a < memSize) (h : Memory.wf g m) :
    Memory.wf g (Memory.put g m a v) := by
  refine ⟨?_, fun c hc => ?_⟩
  · have hs := h.1
    clear h
    induction m with
    | nil =>
      simp only [Memory.put]
      split <;> simp
    | cons d rest ih =>
      rw [List.pairwise_cons] at hs
      simp only [Memory.put]
      by_cases h1 : d.1 < a
      · rw [if_pos h1, List.pairwise_cons]
        refine ⟨fun c hc => ?_, ih hs.2⟩
        rcases mem_put hc with hc | ⟨rfl, -⟩
        · exact hs.1 c hc
        · exact h1
      · rw [if_neg h1]
        by_cases h2 : d.1 = a
        · rw [if_pos h2]
          split
          · exact hs.2
          · rw [List.pairwise_cons]
            exact ⟨fun c hc => h2 ▸ hs.1 c hc, hs.2⟩
        · rw [if_neg h2]
          split
          · exact List.pairwise_cons.2 hs
          · rw [List.pairwise_cons]
            refine ⟨fun c hc => ?_, List.pairwise_cons.2 hs⟩
            have hda : a < d.1 := by omega
            rcases List.mem_cons.1 hc with rfl | hc
            · exact hda
            · exact Nat.lt_trans hda (hs.1 c hc)
  · rcases mem_put hc with hc | ⟨rfl, hv⟩
    · exact h.2 c hc
    · exact ⟨ha, hv⟩

theorem nil_wf (g : GlyphTable) : Memory.wf g [] :=
  ⟨.nil, fun _ hc => nomatch hc⟩

/-! ### The component layer -/

@[simp] theorem inRange_iff (a : Nat) : inRange a = true ↔ a < 4096 := by
  unfold inRange memSize
  exact decide_eq_true_iff

theorem readByte_eq (s : State) (a : Nat) :
    s.readByte a = if a < 4096 then some (Memory.get s.config.glyph s.mem a) else none := by
  simp [State.readByte]

/-- What `writeByte` can do: nothing out of range, else one byte of memory. -/
theorem writeByte_cases (s : State) (a : Nat) (v : Byte) :
    (4096 ≤ a ∧ s.writeByte a v = (false, s)) ∨
      (a < 4096 ∧ s.writeByte a v = (true, { s with mem := Memory.put s.config.glyph s.mem a v })) := by
  unfold State.writeByte
  by_cases h : a < 4096
  · exact .inr ⟨h, by simp [h]⟩
  · exact .inl ⟨by omega, by simp [h]⟩

/-! ### The instruction layer -/

/-- A store changes nothing but memory. -/
theorem memWrite_only (s : State) (a : Nat) (v : Byte) :
    s.memWrite a v = { s with mem := (s.memWrite a v).mem } := by
  unfold State.memWrite
  rcases writeByte_cases s a v with ⟨-, h⟩ | ⟨-, h⟩ <;> rw [h]

/-- A sequence of stores changes nothing but memory. -/
theorem memWriteBytes_only (s : State) (a : Nat) (bs : List Byte) :
    s.memWriteBytes a bs = { s with mem := (s.memWriteBytes a bs).mem } := by
  induction bs generalizing s a with
  | nil => rfl
  | cons b bs ih =>
    rw [State.memWriteBytes, ih, memWrite_only s a b]

theorem memWrite_wf {s : State} (a : Nat) (v : Byte) (h : Memory.wf s.config.glyph s.mem) :
    Memory.wf s.config.glyph (s.memWrite a v).mem := by
  unfold State.memWrite
  rcases writeByte_cases s a v with ⟨-, hw⟩ | ⟨ha, hw⟩ <;> rw [hw]
  · exact h
  · exact put_wf a v ha h

theorem memWrite_config (s : State) (a : Nat) (v : Byte) : (s.memWrite a v).config = s.config := by
  rw [memWrite_only]

theorem memWriteBytes_wf {s : State} (a : Nat) (bs : List Byte) (h : Memory.wf s.config.glyph s.mem) :
    Memory.wf s.config.glyph (s.memWriteBytes a bs).mem := by
  induction bs generalizing s a with
  | nil => exact h
  | cons b bs ih =>
    have := memWrite_wf a b h
    rw [← memWrite_config s a b] at this
    have := ih (a + 1) this
    rwa [memWrite_config] at this

/-- Read after one store: the stored byte at its address, if that is in memory; every other address as before. -/
theorem readByte_memWrite {s : State} (a : Nat) (v : Byte) (b : Nat) (h : Memory.wf s.config.glyph s.mem) :
    (s.memWrite a v).readByte b = if b = a ∧ b < 4096 then some v else s.readByte b := by
  unfold State.memWrite
  rcases writeByte_cases s a v with ⟨ha, hw⟩ | ⟨ha, hw⟩ <;> rw [hw]
  · rw [if_neg (by omega)]
  · simp only [readByte_eq, get_put _ _ _ _ h.1]
    by_cases hb : b = a
    · subst hb; simp [ha]
    · simp [hb]

/-- Read after a sequence of stores. -/
theorem readByte_memWriteBytes {s : State} (a : Nat) (bs : List Byte) (b : Nat)
    (h : Memory.wf s.config.glyph s.mem) :
    (s.memWriteBytes a bs).readByte b =
      if a ≤ b ∧ b < 4096 ∧ b - a < bs.length then bs[b - a]? else s.readByte b := by
  induction bs generalizing s a with
  | nil => simp [State.memWriteBytes]
  | cons c bs ih =>
    have hw := memWrite_wf a c h
    rw [← memWrite_config s a c] at hw
    rw [State.memWriteBytes, ih (a + 1) hw, readByte_memWrite a c b h]
    by_cases hb : a = b
    · subst hb
      by_cases h4 : a < 4096 <;> simp [h4]
    · by_cases h1 : a + 1 ≤ b ∧ b < 4096 ∧ b - (a + 1) < bs.length
      · rw [if_pos h1, if_pos (by simp only [List.length_cons]; omega)]
        rw [show b - a = (b - (a + 1)) + 1 by omega, List.getElem?_cons_succ]
      · rw [if_neg h1, if_neg (by omega), if_neg (by simp only [List.length_cons]; omega)]

theorem memRead_eq (s : State) (a : Nat) :
    s.memRead a = if a < 4096 then Memory.get s.config.glyph s.mem a else 0 := by
  unfold State.memRead
  rw [readByte_eq]
  split <;> rfl

theorem memRead_congr {s t : State} (hm : t.mem = s.mem) (hc : t.config = s.config) (a : Nat) :
    t.memRead a = s.memRead a := by
  rw [memRead_eq, memRead_eq, hm, hc]

theorem readByte_congr {s t : State} (hm : t.mem = s.mem) (hc : t.config = s.config) (a : Nat) :
    t.readByte a = s.readByte a := by
  rw [readByte_eq, readByte_eq, hm, hc]

@[simp] theorem memReadBytes_length (s : State) (a n : Nat) : (s.memReadBytes a n).length = n := by
  induction n generalizing a with
  | zero => rfl
  | succ n ih => simp [State.memReadBytes, ih]

theorem memReadBytes_getElem? (s : State) (a n k : Nat) (h : k < n) :
    (s.memReadBytes a n)[k]? = some (s.memRead (a + k)) := by
  induction n generalizing a k with
  | zero => omega
  | succ n ih =>
    cases k with
    | zero => rfl
    | succ k =>
      rw [State.memReadBytes, List.getElem?_cons_succ, ih (a + 1) k (by omega)]
      congr 2
      omega

theorem memReadBytes_congr {s t : State} (hm : t.mem = s.mem) (hc : t.config = s.config) (a n : Nat) :
    t.memReadBytes a n = s.memReadBytes a n := by
  induction n generalizing a with
  | zero => rfl
  | succ n ih => simp only [State.memReadBytes, ih, memRead_congr hm hc]

/-! ### The queue of host calls plays no part in a memory access -/

theorem memWrite_hostCalls (s : State) (q : List HostCall) (a : Nat) (v : Byte) :
    ({ s with hostCalls := q } : State).memWrite a v = { s.memWrite a v with hostCalls := q } := by
  simp only [State.memWrite, State.writeByte]
  split <;> rfl

theorem memWriteBytes_hostCalls (s : State) (q : List HostCall) (a : Nat) (bs : List Byte) :
    ({ s with hostCalls := q } : State).memWriteBytes a bs = { s.memWriteBytes a bs with hostCalls := q } := by
  induction bs generalizing s a with
  | nil => rfl
  | cons b bs ih => simp only [State.memWriteBytes, memWrite_hostCalls, ih]

end Sys2Proof.Machine
end

