-- ==== Sys2Proof/Laws/Exec.lean ====
section
/-! SUPPORT. The meanings that ask a collaborator, with the answer and the state after it written as projections; and
the inversion of `exec`: the fields that an instruction may change at all. -/

namespace Sys2Proof.Machine

theorem exec_opCxnn (x : Reg) (nn : Byte) (s : State) :
    exec (.opCxnn x nn) s = .next (s.drawByte.2.setV x (s.drawByte.1 &&& nn)).advance := rfl

theorem exec_opEx9E (x : Reg) (s : State) :
    exec (.opEx9E x) s = .next ((s.keyPressed (s.getV x)).2.skipIf (s.keyPressed (s.getV x)).1) := rfl

theorem exec_opExA1 (x : Reg) (s : State) :
    exec (.opExA1 x) s = .next ((s.keyPressed (s.getV x)).2.skipIf (!(s.keyPressed (s.getV x)).1)) := rfl

theorem exec_opFx0A (x : Reg) (s : State) :
    exec (.opFx0A x) s = .next (if s.config.hasInput then s.askForKey x else s.finishKeyWait x 0) := rfl

theorem exec_opDxyn (x y : Reg) (n : Nibble) (s : State) :
    exec (.opDxyn x y n) s = .next (if s.config.hasDisplay then (s.drawSprite x y n).advance else s.advance) := rfl

/-- What asking for a key can do: complete with the key, or hold. -/
theorem askForKey_cases (s : State) (x : Reg) :
    (∃ k : Key, s.answerKey.1 = some k ∧
      s.askForKey x = (s.answerKey.2.record (.waitForKey k)).finishKeyWait x (keyToByte k)) ∨
    (s.answerKey.1 = none ∧ s.askForKey x = { s.answerKey.2 with waiting := true }) := by
  unfold State.askForKey
  rcases s.answerKey with ⟨_ | k, s'⟩
  · exact .inr ⟨rfl, rfl⟩
  · exact .inl ⟨k, rfl, rfl⟩

/-- What drawing a sprite does to the state: the Display answers, and VF receives the answer. -/
theorem drawSprite_eq (s : State) (x y : Reg) (n : Nibble) :
    s.drawSprite x y n =
      (s.displayDraw (s.getV x) (s.getV y) (s.memReadBytes s.baseAddr n.toNat) n).2.setV regVF
        (flagByte (s.displayDraw (s.getV x) (s.getV y) (s.memReadBytes s.baseAddr n.toNat) n).1) := rfl

/-- An instruction changes at most the Interpreter, the wait, the pixels, the record of calls and the answers taken. -/
theorem exec_only {i : Instr} {s t : State} (h : exec i s = .next t) :
    t = { s with
      v := t.v
      pc := t.pc
      i := t.i
      sp := t.sp
      dt := t.dt
      st := t.st
      stack := t.stack
      mem := t.mem
      waiting := t.waiting
      pixels := t.pixels
      calls := t.calls
      answers := t.answers
      draws := t.draws } := by
  cases i
  case op00E0 =>
    cases h
    simp only [State.advance]
    rw [displayClear_only s]
  case op00EE =>
    simp only [exec, exec00EE] at h
    split at h
    · cases h
      rcases pop_cases s with ⟨-, hp⟩ | ⟨-, hp⟩ <;> rw [hp] <;> rfl
    · cases h
  case op2nnn a =>
    simp only [exec, exec2nnn] at h
    split at h
    · cases h
      rcases push_cases s s.pc with ⟨_, hp⟩ | ⟨-, hp⟩ <;> rw [hp] <;> rfl
    · cases h
  case op8xy4 x y => cases h; simp only [State.advance]; rw [writeResultAndFlag_only]
  case op8xy5 x y => cases h; simp only [State.advance]; rw [writeResultAndFlag_only]
  case op8xy6 x y => cases h; simp only [State.advance]; rw [writeResultAndFlag_only]
  case op8xy7 x y => cases h; simp only [State.advance]; rw [writeResultAndFlag_only]
  case op8xyE x y => cases h; simp only [State.advance]; rw [writeResultAndFlag_only]
  case opCxnn x nn =>
    rw [exec_opCxnn] at h
    obtain rfl := Host.Outcome.next.inj h
    simp only [State.advance, State.setV]
    rw [drawByte_only s]
  case opDxyn x y n =>
    rw [exec_opDxyn, drawSprite_eq] at h
    obtain rfl := Host.Outcome.next.inj h
    split
    · simp only [State.advance, State.setV]
      rw [displayDraw_only s]
    · rfl
  case opEx9E x =>
    rw [exec_opEx9E] at h
    obtain rfl := Host.Outcome.next.inj h
    simp only [State.skipIf]
    rw [keyPressed_only s]
  case opExA1 x =>
    rw [exec_opExA1] at h
    obtain rfl := Host.Outcome.next.inj h
    simp only [State.skipIf]
    rw [keyPressed_only s]
  case opFx0A x =>
    rw [exec_opFx0A] at h
    obtain rfl := Host.Outcome.next.inj h
    split
    · rcases askForKey_cases s x with ⟨k, -, hk⟩ | ⟨-, hk⟩ <;> rw [hk]
      · simp only [State.finishKeyWait, State.advance, State.setV, State.record]
        rw [answerKey_only s]
      · rw [answerKey_only s]
    · rfl
  case opFx33 x => cases h; simp only [State.advance]; rw [memWriteBytes_only]
  case opFx55 x => cases h; simp only [State.advance]; rw [memWriteBytes_only]
  all_goals (cases h; rfl)

end Sys2Proof.Machine
end

