-- ==== Sys2Proof/Laws/Drivers.lean ====
section
/-! SUPPORT. Whose turn it is, what one step of each agent comes down to, and what a completed iteration or attempt
adds to a cycle (spec/46_timer_tick.md, spec/47_scheduler.md, spec/48_debugger.md). -/

namespace Sys2Proof.Machine

/-! ### Turns -/

theorem turn_scheduler_iff (s : State) : s.turn = .scheduler ↔ s.runState = .running ∧ s.control = .halted := by
  unfold State.turn
  cases s.runState <;> cases s.control <;> simp

theorem turn_debugger_iff (s : State) : s.turn = .debugger ↔ s.runState ≠ .running ∧ s.control ≠ .halted := by
  unfold State.turn
  cases s.runState <;> cases s.control <;> simp

theorem turn_host_iff (s : State) : s.turn = .host ↔ s.runState ≠ .running ∧ s.control = .halted := by
  unfold State.turn
  cases s.runState <;> cases s.control <;> simp

theorem turn_congr {s t : State} (hr : t.runState = s.runState) (hc : t.control = s.control) : t.turn = s.turn := by
  unfold State.turn
  rw [hr, hc]

theorem step_of_scheduler {s : State} (h : s.turn = .scheduler) : step s = schedulerStep s := by
  simp [step, agentStep, h]

theorem step_of_debugger {s : State} (h : s.turn = .debugger) : step s = debuggerStep s := by
  simp [step, agentStep, h]

theorem step_of_host {s : State} (h : s.turn = .host) : step s = hostStep s := by
  simp [step, agentStep, h]

theorem step_of_conflict {s : State} (h : s.turn = .conflict) : step s = .refused .concurrentDrivers := by
  simp [step, agentStep, h]

/-! ### The tick and the render -/

theorem decrementTimer_eq (b : Byte) : decrementTimer b = ticked b := by
  revert b
  decide

theorem displayRender_eq (s : State) : s.displayRender = { s with calls := rendered s } := by
  unfold State.displayRender rendered Config.hasDisplay
  rcases s.config.display with _ | _ | _ <;> rfl

/-- Steps 4 to 6 of an iteration, as one update. -/
theorem finishIteration_eq (s : State) :
    s.finishIteration =
      if s.tickDue then
        { s with dt := ticked s.dt, st := ticked s.st, tTimer := s.now, calls := rendered s }
      else { s with calls := rendered s } := by
  unfold State.finishIteration
  rw [displayRender_eq]
  split <;> simp only [State.timerTick, decrementTimer_eq]

/-! ### What a step of each agent comes down to -/

/-- An attempt that executes is its body, run where the poll and the breakpoint test left the state, or where an
`Fx0A` waits. -/
theorem debuggerStep_of_attempt {s u : State} (h : AttemptFrom s u) : debuggerStep s = u.attemptBody := by
  unfold debuggerStep
  rcases h with ⟨hw, hp, hb⟩ | ⟨hw, rfl⟩
  · simp [hw, hp, State.atBreakpoint, hb]
  · simp [hw]

/-- An iteration that passes the poll is its body, run where the poll and the sample left the state, or where an
`Fx0A` waits. -/
theorem schedulerStep_of_iteration {s u : State} (h : IterationFrom s u) : schedulerStep s = u.iterationBody := by
  unfold schedulerStep
  rcases h with ⟨hw, s', hp, rfl⟩ | ⟨hw, rfl⟩
  · simp [hw, hp]
  · simp [hw]

theorem attemptBody_next {u t : State} (h : cycle u = .next t) :
    u.attemptBody = .next (if t.waiting then t else t.finishAttempt) := by
  simp [State.attemptBody, h]

theorem iterationBody_due {u t : State} (hd : u.cycleDue = true) (h : cycle u = .next t) :
    u.iterationBody = .next t.afterSchedulerCycle := by
  simp [State.iterationBody, hd, h]

theorem iterationBody_idle {u : State} (hd : u.cycleDue = false) : u.iterationBody = .next u.finishIteration := by
  simp [State.iterationBody, hd]

theorem hostStep_idle {s : State} (h : s.hostCalls = []) : hostStep s = .next s := by
  simp [hostStep, h]

theorem hostStep_call {s : State} {c : HostCall} {rest : List HostCall} (h : s.hostCalls = c :: rest) :
    hostStep s = hostCall c { s with hostCalls := rest } := by
  simp [hostStep, h]

/-- The poll of a state whose poll is settled as open takes the settled answers and nothing else (R225). -/
theorem pollOpen_settleOpenPoll (s : State) :
    s.settleOpenPoll.pollOpen =
      (true, { s with
        cancelRequested := false
        calls := if s.config.hasInput then .pollAndContinue true :: s.calls else s.calls }) := by
  cases h : s.config.hasInput <;>
    simp [State.pollOpen, State.sampleCancel, State.answerCancel, State.settleOpenPoll, State.pollInput,
      State.answerPoll, State.record, h]

end Sys2Proof.Machine
end

