-- ==== Sys2Proof/Laws/PerInstr.lean ====
section
/-! SUPPORT. One statement about every instruction as syntax, one lemma per constructor: the family `TopNibble` says in
which of the sixteen families of the opcode map the word of an instruction lies (spec/30_encoding.md R84, R86). -/

namespace Sys2Proof.Laws.TopNibble

/-- The top nibbles an instruction's word can have: the one of its row, and for an unrecognized word one of the four
families that leave words over (R87). -/
def allowed (i : Instr) : List Nat :=
  match i with
  | .op00E0 => [0x0]
  | .op00EE => [0x0]
  | .op1nnn _ => [0x1]
  | .op2nnn _ => [0x2]
  | .op3xnn _ _ => [0x3]
  | .op4xnn _ _ => [0x4]
  | .op5xy0 _ _ _ => [0x5]
  | .op6xnn _ _ => [0x6]
  | .op7xnn _ _ => [0x7]
  | .op8xy0 _ _ => [0x8]
  | .op8xy1 _ _ => [0x8]
  | .op8xy2 _ _ => [0x8]
  | .op8xy3 _ _ => [0x8]
  | .op8xy4 _ _ => [0x8]
  | .op8xy5 _ _ => [0x8]
  | .op8xy6 _ _ => [0x8]
  | .op8xy7 _ _ => [0x8]
  | .op8xyE _ _ => [0x8]
  | .op9xy0 _ _ _ => [0x9]
  | .opAnnn _ => [0xA]
  | .opBnnn _ => [0xB]
  | .opCxnn _ _ => [0xC]
  | .opDxyn _ _ _ => [0xD]
  | .opEx9E _ => [0xE]
  | .opExA1 _ => [0xE]
  | .opFx07 _ => [0xF]
  | .opFx0A _ => [0xF]
  | .opFx15 _ => [0xF]
  | .opFx18 _ => [0xF]
  | .opFx1E _ => [0xF]
  | .opFx29 _ => [0xF]
  | .opFx33 _ => [0xF]
  | .opFx55 _ => [0xF]
  | .opFx65 _ => [0xF]
  | .opUnrecognized _ => [0x0, 0x8, 0xE, 0xF]

/-- The word of a well-formed instruction lies in its family. -/
def Statement (i : Instr) : Prop := i.wellFormed = true → (fieldTop (encode i)).toNat ∈ allowed i

theorem mem_NNN (top : Nibble) (nnn : Addr12) : (fieldTop (encodeNNN top nnn)).toNat ∈ [top.toNat] := by
  rw [fieldTop_encodeNNN]
  exact List.mem_singleton.2 rfl

theorem mem_XNN (top : Nibble) (x : Reg) (nn : Byte) : (fieldTop (encodeXNN top x nn)).toNat ∈ [top.toNat] := by
  rw [fieldTop_encodeXNN]
  exact List.mem_singleton.2 rfl

theorem mem_XYN (top : Nibble) (x y : Reg) (n : Nibble) :
    (fieldTop (encodeXYN top x y n)).toNat ∈ [top.toNat] := by
  rw [fieldTop_encodeXYN]
  exact List.mem_singleton.2 rfl

theorem op00E0 : Statement .op00E0 :=
  fun _ => List.mem_singleton.2 rfl

theorem op00EE : Statement .op00EE :=
  fun _ => List.mem_singleton.2 rfl

theorem op1nnn (nnn : Addr12) : Statement (.op1nnn nnn) :=
  fun _ => mem_NNN _ nnn

theorem op2nnn (nnn : Addr12) : Statement (.op2nnn nnn) :=
  fun _ => mem_NNN _ nnn

theorem op3xnn (x : Reg) (nn : Byte) : Statement (.op3xnn x nn) :=
  fun _ => mem_XNN _ x _

theorem op4xnn (x : Reg) (nn : Byte) : Statement (.op4xnn x nn) :=
  fun _ => mem_XNN _ x _

theorem op5xy0 (x y : Reg) (n : Nibble) : Statement (.op5xy0 x y n) :=
  fun _ => mem_XYN _ x y _

theorem op6xnn (x : Reg) (nn : Byte) : Statement (.op6xnn x nn) :=
  fun _ => mem_XNN _ x _

theorem op7xnn (x : Reg) (nn : Byte) : Statement (.op7xnn x nn) :=
  fun _ => mem_XNN _ x _

theorem op8xy0 (x y : Reg) : Statement (.op8xy0 x y) :=
  fun _ => mem_XYN _ x y _

theorem op8xy1 (x y : Reg) : Statement (.op8xy1 x y) :=
  fun _ => mem_XYN _ x y _

theorem op8xy2 (x y : Reg) : Statement (.op8xy2 x y) :=
  fun _ => mem_XYN _ x y _

theorem op8xy3 (x y : Reg) : Statement (.op8xy3 x y) :=
  fun _ => mem_XYN _ x y _

theorem op8xy4 (x y : Reg) : Statement (.op8xy4 x y) :=
  fun _ => mem_XYN _ x y _

theorem op8xy5 (x y : Reg) : Statement (.op8xy5 x y) :=
  fun _ => mem_XYN _ x y _

theorem op8xy6 (x y : Reg) : Statement (.op8xy6 x y) :=
  fun _ => mem_XYN _ x y _

theorem op8xy7 (x y : Reg) : Statement (.op8xy7 x y) :=
  fun _ => mem_XYN _ x y _

theorem op8xyE (x y : Reg) : Statement (.op8xyE x y) :=
  fun _ => mem_XYN _ x y _

theorem op9xy0 (x y : Reg) (n : Nibble) : Statement (.op9xy0 x y n) :=
  fun _ => mem_XYN _ x y _

theorem opAnnn (nnn : Addr12) : Statement (.opAnnn nnn) :=
  fun _ => mem_NNN _ nnn

theorem opBnnn (nnn : Addr12) : Statement (.opBnnn nnn) :=
  fun _ => mem_NNN _ nnn

theorem opCxnn (x : Reg) (nn : Byte) : Statement (.opCxnn x nn) :=
  fun _ => mem_XNN _ x _

theorem opDxyn (x y : Reg) (n : Nibble) : Statement (.opDxyn x y n) :=
  fun _ => mem_XYN _ x y _

theorem opEx9E (x : Reg) : Statement (.opEx9E x) :=
  fun _ => mem_XNN _ x _

theorem opExA1 (x : Reg) : Statement (.opExA1 x) :=
  fun _ => mem_XNN _ x _

theorem opFx07 (x : Reg) : Statement (.opFx07 x) :=
  fun _ => mem_XNN _ x _

theorem opFx0A (x : Reg) : Statement (.opFx0A x) :=
  fun _ => mem_XNN _ x _

theorem opFx15 (x : Reg) : Statement (.opFx15 x) :=
  fun _ => mem_XNN _ x _

theorem opFx18 (x : Reg) : Statement (.opFx18 x) :=
  fun _ => mem_XNN _ x _

theorem opFx1E (x : Reg) : Statement (.opFx1E x) :=
  fun _ => mem_XNN _ x _

theorem opFx29 (x : Reg) : Statement (.opFx29 x) :=
  fun _ => mem_XNN _ x _

theorem opFx33 (x : Reg) : Statement (.opFx33 x) :=
  fun _ => mem_XNN _ x _

theorem opFx55 (x : Reg) : Statement (.opFx55 x) :=
  fun _ => mem_XNN _ x _

theorem opFx65 (x : Reg) : Statement (.opFx65 x) :=
  fun _ => mem_XNN _ x _

/-- A word whose family takes every word selects a row. -/
theorem recognized_of_row {op : Word} {r : OpcodeRow} (hr : r ∈ opcodeRows) (h : r.selectedBy op = true) :
    recognized op = true :=
  List.any_eq_true.2 ⟨r, hr, h⟩

theorem selectedBy_F000 {op : Word} (mn : String) (code : Word) (h : op.toNat / 4096 * 4096 = code.toNat) :
    (OpcodeRow.mk mn code 0xF000).selectedBy op = true := by
  simp only [OpcodeRow.selectedBy, beq_iff_eq]
  apply BitVec.eq_of_toNat_eq
  rw [and_F000_toNat, h]

theorem opUnrecognized (op : Word) : Statement (.opUnrecognized op) := by
  intro h
  have hlt := op.isLt
  have hn : ∀ (mn : String) (code : Word), OpcodeRow.mk mn code 0xF000 ∈ opcodeRows →
      op.toNat / 4096 * 4096 ≠ code.toNat := by
    intro mn code hr hc
    have := recognized_of_row hr (selectedBy_F000 mn code hc)
    simp [Instr.wellFormed, this] at h
  have hmem : ∀ r, r ∈ opcodeRowsLow ∨ r ∈ opcodeRowsHigh → r ∈ opcodeRows := by
    intro r hr
    simp only [opcodeRows, List.mem_append]
    tauto
  have h1 : op.toNat / 4096 * 4096 ≠ 0x1000 := hn "1nnn" 0x1000 (hmem _ (by simp [opcodeRowsLow, opcodeRowsHigh]))
  have h2 : op.toNat / 4096 * 4096 ≠ 0x2000 := hn "2nnn" 0x2000 (hmem _ (by simp [opcodeRowsLow, opcodeRowsHigh]))
  have h3 : op.toNat / 4096 * 4096 ≠ 0x3000 := hn "3xnn" 0x3000 (hmem _ (by simp [opcodeRowsLow, opcodeRowsHigh]))
  have h4 : op.toNat / 4096 * 4096 ≠ 0x4000 := hn "4xnn" 0x4000 (hmem _ (by simp [opcodeRowsLow, opcodeRowsHigh]))
  have h5 : op.toNat / 4096 * 4096 ≠ 0x5000 := hn "5xy0" 0x5000 (hmem _ (by simp [opcodeRowsLow, opcodeRowsHigh]))
  have h6 : op.toNat / 4096 * 4096 ≠ 0x6000 := hn "6xnn" 0x6000 (hmem _ (by simp [opcodeRowsLow, opcodeRowsHigh]))
  have h7 : op.toNat / 4096 * 4096 ≠ 0x7000 := hn "7xnn" 0x7000 (hmem _ (by simp [opcodeRowsLow, opcodeRowsHigh]))
  have h9 : op.toNat / 4096 * 4096 ≠ 0x9000 := hn "9xy0" 0x9000 (hmem _ (by simp [opcodeRowsLow, opcodeRowsHigh]))
  have hA : op.toNat / 4096 * 4096 ≠ 0xA000 := hn "Annn" 0xA000 (hmem _ (by simp [opcodeRowsLow, opcodeRowsHigh]))
  have hB : op.toNat / 4096 * 4096 ≠ 0xB000 := hn "Bnnn" 0xB000 (hmem _ (by simp [opcodeRowsLow, opcodeRowsHigh]))
  have hC : op.toNat / 4096 * 4096 ≠ 0xC000 := hn "Cxnn" 0xC000 (hmem _ (by simp [opcodeRowsLow, opcodeRowsHigh]))
  have hD : op.toNat / 4096 * 4096 ≠ 0xD000 := hn "Dxyn" 0xD000 (hmem _ (by simp [opcodeRowsLow, opcodeRowsHigh]))
  simp only [encode, allowed, fieldTop_toNat, List.mem_cons, List.not_mem_nil, or_false]
  omega

end Sys2Proof.Laws.TopNibble
end

