-- ==== Sys2Proof/Tests/Slice0.lean ====
section
/-! SUPPORT. The model's own tests. Expected results come from spec/95_test_vectors.md (the vector is named in each
comment) or are worked out by hand from the rule named; the last part gives, for each obligation with hypotheses, a
concrete state and operands that meet them. -/

namespace Sys2Proof.Tests

-- Many small kernel evaluations: one after another, not all at once.
set_option Elab.async false

open Sys2Proof.Machine

/-! ### Helpers -/

/-- What `f` reads from the state after one `cycle()` of `s` as it stands. -/
def afterCycle {α : Type} (s : State) (f : State → α) : Option α :=
  match cycle s with
  | .next t => some (f t)
  | .fault _ => none
  | .refused _ => none

/-- What `f` reads from the state after one `cycle()` of `s`, with the word `w` placed where it is fetched. The driver's
tick and render are not in it. -/
def after {α : Type} (s : State) (w : Nat) (f : State → α) : Option α := afterCycle (s.withFetchWord 16 w) f

/-- What `f` reads from the state after one step of `s` as it stands. -/
def afterStep {α : Type} (s : State) (f : State → α) : Option α :=
  match step s with
  | .next t => some (f t)
  | .fault _ => none
  | .refused _ => none

/-- The reset state. -/
def s0 : State := State.reset

/-- The reset state with the reference Display of R204 attached. -/
def sRef : State := { s0 with config := { defaultConfig with display := .reference } }

/-- The reset state with neither collaborator attached. -/
def sHeadless : State := { s0 with config := { defaultConfig with display := .absent, hasInput := false } }

/-- The reset state with the other order of the two writes of a flag-writing instruction. -/
def sResultLast : State := { s0 with config := { defaultConfig with vfOrder := .resultLast } }

/-- Bytes placed in memory one after another. -/
def poke (s : State) (a : Nat) (bs : List Byte) : State := s.memWriteBytes a bs

/-- A state with settled answers. -/
def answering (s : State) (a : Answers) : State := { s with answers := a }

/-! ### Well-formed terms: the one check, and what it refuses -/

/-- 0x6042 selects the row `6xnn`, so it is no unrecognized word (R85, R86). -/
theorem test_wellFormed_refuses_recognized_word : (Instr.opUnrecognized 0x6042).wellFormed = false := by decide

/-- 0x5127 selects the row `5xy0` under decision D6. -/
theorem test_wellFormed_refuses_dont_care_nibble : (Instr.opUnrecognized 0x5127).wellFormed = false := by decide

theorem test_wellFormed_accepts_unrecognized_word : (Instr.opUnrecognized 0x8128).wellFormed = true := by decide

/-! ### Decoding: each instruction's word bit by bit from R82 and R85 -/

theorem test_decode_family0 :
    decode 0b0000000011100000 = .op00E0 ∧ decode 0b0000000011101110 = .op00EE ∧
    decode 0b0000000111100000 = .opUnrecognized 0x01E0 ∧ decode 0b0000000000000000 = .opUnrecognized 0 := by decide

theorem test_decode_nnn :
    decode 0b0001101010111100 = .op1nnn 0xABC ∧ decode 0b0010001100000000 = .op2nnn 0x300 ∧
    decode 0b1010111111111111 = .opAnnn 0xFFF ∧ decode 0b1011001000000100 = .opBnnn 0x204 := by decide

theorem test_decode_xnn :
    decode 0b0011111100000001 = .op3xnn 15 0x01 ∧ decode 0b0100000001000010 = .op4xnn 0 0x42 ∧
    decode 0b0110000001000010 = .op6xnn 0 0x42 ∧ decode 0b0111000111111111 = .op7xnn 1 0xFF ∧
    decode 0b1100000000001111 = .opCxnn 0 0x0F := by decide

theorem test_decode_xyn :
    decode 0b0101001000110000 = .op5xy0 2 3 0 ∧ decode 0b0101000100100111 = .op5xy0 1 2 7 ∧
    decode 0b1001001000110000 = .op9xy0 2 3 0 ∧ decode 0b1101000100100101 = .opDxyn 1 2 5 := by decide

theorem test_decode_family8 :
    decode 0b1000000100100000 = .op8xy0 1 2 ∧ decode 0b1000000100100001 = .op8xy1 1 2 ∧
    decode 0b1000000100100010 = .op8xy2 1 2 ∧ decode 0b1000000100100011 = .op8xy3 1 2 ∧
    decode 0b1000000100100100 = .op8xy4 1 2 ∧ decode 0b1000000100100101 = .op8xy5 1 2 ∧
    decode 0b1000000100100110 = .op8xy6 1 2 ∧ decode 0b1000000100100111 = .op8xy7 1 2 ∧
    decode 0b1000000100101110 = .op8xyE 1 2 ∧ decode 0b1000000100101000 = .opUnrecognized 0x8128 := by decide

theorem test_decode_familyE :
    decode 0b1110001110011110 = .opEx9E 3 ∧ decode 0b1110001110100001 = .opExA1 3 ∧
    decode 0b1110000110011111 = .opUnrecognized 0xE19F := by decide

theorem test_decode_familyF :
    decode 0b1111000100000111 = .opFx07 1 ∧ decode 0b1111001000001010 = .opFx0A 2 ∧
    decode 0b1111000000010101 = .opFx15 0 ∧ decode 0b1111001000011000 = .opFx18 2 ∧
    decode 0b1111000000011110 = .opFx1E 0 ∧ decode 0b1111000000101001 = .opFx29 0 ∧
    decode 0b1111000000110011 = .opFx33 0 ∧ decode 0b1111001101010101 = .opFx55 3 ∧
    decode 0b1111001001100101 = .opFx65 2 ∧ decode 0b1111000101110101 = .opUnrecognized 0xF175 := by decide

/-- S9's bytes: the high-order byte lies first (R64); one byte alone is no instruction. -/
theorem test_decode_bytes :
    decodeBytes [0x60, 0x42, 0xFF] = .ok (.op6xnn 0 0x42, [0xFF]) ∧ decodeBytes [0x60] = .error .truncated ∧
    decodeTableWord 16 0x6042 = some (.op6xnn 0 0x42) := by decide

/-! ### Fetch and unrecognized words -/

/-- T1, T2. -/
theorem test_unrecognized_walks : after s0 0x0123 (fun t => (t.pc, t.sp, t.v)) = some (0x202, 0, s0.v) := by decide

/-- T5: the low byte of the fetch at 0xFFF is absent. -/
theorem test_fetch_last_byte :
    afterCycle (poke { s0 with pc := 0xFFF } 0xFFF [0x12]) (fun t => t.pc) = some 0x200 := by decide

/-- T9: PC wraps. -/
theorem test_fetch_beyond_memory : afterCycle { s0 with pc := 0xFFFF } (fun t => t.pc) = some 1 := by decide

/-! ### Control transfer -/

/-- T27. -/
theorem test_00EE_pops :
    after { s0 with sp := 2, stack := (s0.stack.set 0 0x111).set 1 0xABC } 0x00EE
      (fun t => (t.pc, t.sp, t.slot 0, t.slot 1)) = some (0xABE, 1, 0x111, 0xABC) := by decide

/-- T26: an empty stack. -/
theorem test_00EE_empty : after s0 0x00EE (fun t => (t.pc, t.sp)) = some (2, 0) := by decide

/-- T20. -/
theorem test_1nnn : after s0 0x1ABC (fun t => t.pc) = some 0xABC := by decide

/-- T23: the call's own address is pushed. -/
theorem test_2nnn_pushes : after s0 0x2300 (fun t => (t.pc, t.sp, t.slot 0)) = some (0x300, 1, 0x200) := by decide

/-- T24: a full stack. -/
theorem test_2nnn_full :
    after { s0 with sp := 16 } 0x2300 (fun t => (t.pc, t.sp, t.stack)) = some (0x300, 16, s0.stack) := by decide

/-- T30: not reduced to 12 bits. -/
theorem test_Bnnn : after (s0.setV 0 0xFF) 0xBFFF (fun t => t.pc) = some 0x10FE := by decide

/-! ### Skips: T41 and T40, T43 and T44, T12 and T46, T49 and T48 -/

theorem test_3xnn : after (s0.setV 1 2) 0x3100 (fun t => t.pc) = some 0x202 ∧
    after s0 0x3100 (fun t => t.pc) = some 0x204 := by decide

theorem test_4xnn : after (s0.setV 0 0x42) 0x4042 (fun t => t.pc) = some 0x202 ∧
    after (s0.setV 0 0x42) 0x4043 (fun t => t.pc) = some 0x204 := by decide

theorem test_5xy0 : after ((s0.setV 1 3).setV 2 3) 0x5127 (fun t => t.pc) = some 0x204 ∧
    after ((s0.setV 2 7).setV 3 8) 0x5230 (fun t => t.pc) = some 0x202 := by decide

theorem test_9xy0 : after ((s0.setV 2 7).setV 3 7) 0x9230 (fun t => t.pc) = some 0x202 ∧
    after ((s0.setV 2 7).setV 3 8) 0x9230 (fun t => t.pc) = some 0x204 := by decide

/-! ### Load, arithmetic, logic, shift, random -/

/-- S9. -/
theorem test_6xnn : after s0 0x6042 (fun t => (t.getV 0, t.pc)) = some (0x42, 0x202) := by decide

/-- T61: wraps, no flag. -/
theorem test_7xnn :
    after ((s0.setV 1 0xFF).setV 15 1) 0x7101 (fun t => (t.getV 1, t.getV 15)) = some (0, 1) := by decide

/-- T64. -/
theorem test_8xy0 : after (s0.setV 2 9) 0x8120 (fun t => (t.getV 1, t.getV 2)) = some (9, 9) := by decide

/-- T66: VF is not reset. -/
theorem test_8xy1 : after (((s0.setV 1 0xF0).setV 2 0x0F).setV 15 1) 0x8121
    (fun t => (t.getV 1, t.getV 15)) = some (0xFF, 1) := by decide

/-- T67. -/
theorem test_8xy2 : after (((s0.setV 1 0xF3).setV 2 0x3C).setV 15 1) 0x8122
    (fun t => (t.getV 1, t.getV 15)) = some (0x30, 1) := by decide

/-- T68. -/
theorem test_8xy3 : after (((s0.setV 1 0xFF).setV 2 0x0F).setV 15 1) 0x8123
    (fun t => (t.getV 1, t.getV 15)) = some (0xF0, 1) := by decide

/-- T72, and T75 where VF itself is the addend. -/
theorem test_8xy4 : after ((s0.setV 1 0xFF).setV 2 0xFF) 0x8124 (fun t => (t.getV 1, t.getV 15)) = some (0xFE, 1) ∧
    after ((s0.setV 0 0xFF).setV 15 1) 0x80F4 (fun t => (t.getV 0, t.getV 15)) = some (0, 1) := by decide

/-- T100 under both orders of the two writes. -/
theorem test_8xy4_flag_order :
    after ((s0.setV 15 0xF0).setV 1 0x20) 0x8F14 (fun t => (t.getV 15, t.getV 1)) = some (1, 0x20) ∧
    after ((sResultLast.setV 15 0xF0).setV 1 0x20) 0x8F14 (fun t => (t.getV 15, t.getV 1)) = some (0x10, 0x20) := by
  decide

/-- T77, and T78: equal operands give flag 0. -/
theorem test_8xy5 : after ((s0.setV 1 0x10).setV 2 0x20) 0x8125 (fun t => (t.getV 1, t.getV 15)) = some (0xF0, 0) ∧
    after (((s0.setV 1 0x33).setV 2 0x33).setV 15 1) 0x8125 (fun t => (t.getV 1, t.getV 15)) = some (0, 0) := by
  decide

/-- T82: `y` is ignored. -/
theorem test_8xy6 : after ((s0.setV 1 5).setV 2 0xFF) 0x8126 (fun t => (t.getV 1, t.getV 15, t.getV 2)) =
    some (2, 1, 0xFF) := by decide

/-- T87 and T86. -/
theorem test_8xy7 : after ((s0.setV 1 0x20).setV 2 0x10) 0x8127 (fun t => (t.getV 1, t.getV 15)) = some (0xF0, 0) ∧
    after ((s0.setV 1 0x10).setV 2 0x20) 0x8127 (fun t => (t.getV 1, t.getV 15)) = some (0x10, 1) := by decide

/-- T89. -/
theorem test_8xyE : after ((s0.setV 1 0x81).setV 2 0x55) 0x812E (fun t => (t.getV 1, t.getV 15, t.getV 2)) =
    some (2, 1, 0x55) := by decide

/-- T92, with the draw settled. -/
theorem test_Cxnn : after (answering s0 { Answers.none with random := [0xA7] }) 0xC00F
    (fun t => (t.getV 0, t.answers.random)) = some (7, []) := by decide

/-- T93: a zero mask, whatever the draw. -/
theorem test_Cxnn_zero_mask : after (answering (s0.setV 0 0x55) { Answers.none with random := [0xA7] }) 0xC000
    (fun t => t.getV 0) = some 0 := by decide

/-! ### Index register and memory transfer -/

/-- T110. -/
theorem test_Annn : after s0 0xAFFF (fun t => t.i) = some 0xFFF := by decide

/-- T112 and T113. -/
theorem test_Fx1E : after ({ s0 with i := 0xFFF }.setV 0 1) 0xF01E (fun t => (t.i, t.getV 15)) = some (0x1000, 0) ∧
    after ({ s0 with i := 0xFFFF }.setV 0 1) 0xF01E (fun t => t.i) = some 0 := by decide

/-- T117: the whole byte. -/
theorem test_Fx29 : after (s0.setV 0 0xFF) 0xF029 (fun t => t.i) = some 0x4FB := by decide

/-- T118. -/
theorem test_Fx33 : after ({ s0 with i := 0x300 }.setV 0 254) 0xF033
    (fun t => (t.memReadBytes 0x300 4, t.i)) = some ([2, 5, 4, 0], 0x300) := by decide

/-- T121: the ones digit is dropped. -/
theorem test_Fx33_edge : after ({ s0 with i := 0xFFE }.setV 0 254) 0xF033
    (fun t => (t.memReadBytes 0xFFE 2, t.readByte 0x1000)) = some ([2, 5], none) := by decide

/-- T123 (and the byte after the last is untouched). -/
theorem test_Fx55 : after (({ s0 with i := 0x300 }.setV 0 0x11).setV 3 0x44) 0xF355
    (fun t => (t.memReadBytes 0x300 5, t.i)) = some ([0x11, 0, 0, 0x44, 0], 0x300) := by decide

/-- T124: bytes beyond memory are dropped on their own. -/
theorem test_Fx55_edge : after (({ s0 with i := 0xFFE }.setV 0 0x11).setV 1 0x22) 0xF355
    (fun t => (t.memReadBytes 0xFFE 2, t.memRead 0)) = some ([0x11, 0x22], 0xF0) := by decide

/-- T127. -/
theorem test_Fx65 : after (poke ({ s0 with i := 0x300 }.setV 3 0x77) 0x300 [2, 5, 4]) 0xF265
    (fun t => (t.getV 0, t.getV 1, t.getV 2, t.getV 3)) = some (2, 5, 4, 0x77) := by decide

/-- T128: absent bytes read as 0. -/
theorem test_Fx65_edge : after (poke (({ s0 with i := 0xFFE }.setV 2 0x77).setV 3 0x77) 0xFFE [0xAA, 0xBB]) 0xF365
    (fun t => (t.getV 0, t.getV 1, t.getV 2, t.getV 3)) = some (0xAA, 0xBB, 0, 0) := by decide

/-! ### Timers, keys, display -/

/-- T140. -/
theorem test_Fx07 : after { s0 with dt := 2 } 0xF107 (fun t => (t.getV 1, t.dt)) = some (2, 2) := by decide

/-- T141. -/
theorem test_Fx15 : after (s0.setV 0 3) 0xF015 (fun t => (t.dt, t.st)) = some (3, 0) := by decide

/-- T142. -/
theorem test_Fx18 : after (s0.setV 2 0x1E) 0xF218 (fun t => (t.dt, t.st)) = some (0, 0x1E) := by decide

/-- T143 and T144. -/
theorem test_Ex9E : after (answering (s0.setV 3 5) { Answers.none with keysDown := [true] }) 0xE39E
      (fun t => (t.pc, t.calls)) = some (0x204, [.isKeyPressed 5 true]) ∧
    after (answering (s0.setV 3 5) { Answers.none with keysDown := [false] }) 0xE39E (fun t => t.pc) = some 0x202 := by
  decide

/-- T146, and T148 with no Input. -/
theorem test_ExA1 : after (answering (s0.setV 3 5) { Answers.none with keysDown := [false] }) 0xE3A1
      (fun t => t.pc) = some 0x204 ∧
    after (sHeadless.setV 3 5) 0xE3A1 (fun t => t.pc) = some 0x204 := by decide

/-- T150, with no key at first: the cycle is not complete and the state is as it was (T151). -/
theorem test_Fx0A_holds : after (answering (s0.setV 2 0xFF) { Answers.none with keys := [none, some 7] }) 0xF20A
    (fun t => (t.waiting, t.pc, t.getV 2, t.answers.keys)) = some (true, 0x200, 0xFF, [some 7]) := by decide

/-- T150: key 7 arrives. -/
theorem test_Fx0A_completes : after (answering (s0.setV 2 0xFF) { Answers.none with keys := [some 7] }) 0xF20A
    (fun t => (t.waiting, t.pc, t.getV 2, t.calls)) = some (false, 0x202, 7, [.waitForKey 7]) := by decide

/-- T152. -/
theorem test_Fx0A_headless : after (sHeadless.setV 2 0xFF) 0xF20A (fun t => (t.pc, t.getV 2)) = some (0x202, 0) := by
  decide

/-- T153. -/
theorem test_00E0 : after { sRef.setV 15 1 with pixels := [3, 70] } 0x00E0
    (fun t => (t.pixels, t.getV 15, t.calls)) = some ([], 1, [.clear]) := by decide

/-- T160 (pixel numbers are row * 64 + column), then T161: the same word again erases it and collides. -/
theorem test_Dxyn : after ({ sRef with i := 0x32 }.setV 1 5 |>.setV 2 3) 0xD125
      (fun t => (t.getV 15, t.pixels, after { t with pc := 0x200 } 0xD125 (fun u => (u.getV 15, u.pixels)))) =
    some (0, [197, 198, 199, 200, 261, 264, 325, 326, 327, 328, 389, 392, 453, 456], some (1, [])) := by decide

/-- T155: with no Display VF keeps its value; T156: an oracle Display that answers a collision. -/
theorem test_Dxyn_absent_and_oracle : after (sHeadless.setV 15 7) 0xD015 (fun t => (t.pc, t.getV 15)) =
      some (0x202, 7) ∧
    after (answering s0 { Answers.none with collisions := [true] }) 0xD015 (fun t => t.getV 15) = some 1 := by decide

/-! ### Timer tick, Scheduler, Debugger -/

/-- T173. -/
theorem test_timerTick : ({ s0 with dt := 255, st := 2 }.timerTick.dt, { s0 with dt := 255, st := 2 }.timerTick.st) =
    (254, 1) := by decide

/-- A Scheduler that was entered at time 0, with `6007` at 0x200, DT = 9 and the answers of one iteration. -/
def running (elapsed : Time) (stillOpen : Bool) : State :=
  answering (poke { s0 with runState := .running, dt := 9 } 0x200 [0x60, 0x07])
    { Answers.none with cancels := [false], polls := [stillOpen], elapsed := [elapsed] }

/-- 2.8, first line: at 0.010 s a cycle and no tick. -/
theorem test_scheduler_cycle_only : afterStep (running (1 / 100) true)
    (fun t => (t.getV 0, t.pc, t.dt, decide (t.tCycle = 1 / 100), decide (t.tTimer = 0))) =
    some (7, 0x202, 9, true, true) := by decide +kernel

/-- 2.8, second line: at 0.020 s a cycle, then a tick, then the render. -/
theorem test_scheduler_cycle_and_tick : afterStep (running (1 / 50) true)
    (fun t => (t.getV 0, t.dt, decide (t.tTimer = 1 / 50), t.calls)) =
    some (7, 8, true, [.render, .pollAndContinue true]) := by decide +kernel

/-- 2.8, the exact boundary of the instruction clock, and stop vector (a). -/
theorem test_scheduler_boundary_and_stop :
    afterStep (running (1 / 500) true) (fun t => (t.getV 0, t.dt)) = some (7, 9) ∧
    afterStep (running (1 / 500) false) (fun t => (t.getV 0, t.dt, t.runState, t.calls)) =
      some (0, 9, .stopped, [.pollAndContinue false]) := by decide +kernel

/-- A Debugger inside `step()`, with `6007` at 0x200, DT = 9, the Input open. -/
def stepping (bp : List Word) (stillOpen : Bool) : State :=
  answering (poke { s0 with control := .stepping, bp := bp, dt := 9 } 0x200 [0x60, 0x07])
    { Answers.none with cancels := [false], polls := [stillOpen] }

/-- T180. -/
theorem test_debugger_step : afterStep (stepping [] true) (fun t => (t.getV 0, t.pc, t.dt, t.control, t.hostReplies)) =
    some (7, 0x202, 8, .halted, [.outcome .executed]) := by decide

/-- T185 and T186: the breakpoint, and closure before it. -/
theorem test_debugger_breakpoint :
    afterStep (stepping [0x200] true) (fun t => (t.getV 0, t.dt, t.hostReplies)) =
      some (0, 9, [.outcome (.breakpointHit 0x200)]) ∧
    afterStep (stepping [0x200] false) (fun t => t.hostReplies) = some [.outcome .closed] := by decide

/-- The instruction is executed by the step after `withFetchWord`, and then the tick and the render follow; a
breakpoint at PC, a cancellation request and a running Scheduler do not stand in its way (log 1). -/
theorem test_withFetchWord :
    afterStep (State.withFetchWord { s0 with bp := [0x200, 0x300], cancelRequested := true, runState := .running } 16
        0x60FF) (fun t => (t.getV 0, t.pc, t.bp, t.calls)) =
      some (0xFF, 0x202, [0x300], [.render, .pollAndContinue true]) ∧
    afterStep ((s0.setV 0 3).withFetchWord 16 0xF015) (fun t => t.dt) = some 2 := by decide

/-- R247: an `Fx0A` that begins to wait inside `step()`, with nothing after it, and one whose key arrives, with the
tick and the render. -/
theorem test_debugger_key_wait :
    afterStep (answering (poke { s0 with control := .stepping, dt := 9 } 0x200 [0xF2, 0x0A])
        { Answers.none with cancels := [false], polls := [true], keys := [none] })
      (fun t => (t.waiting, t.control, t.dt, t.calls)) = some (true, .stepping, 9, [.pollAndContinue true]) ∧
    afterStep (answering (poke { s0 with control := .stepping, dt := 9, waiting := true } 0x200 [0xF2, 0x0A])
        { Answers.none with keys := [some 7] })
      (fun t => (t.waiting, t.getV 2, t.dt, t.calls)) = some (false, 7, 8, [.render, .waitForKey 7]) := by
  decide

/-- R230: the key arrives in an iteration that began with the sample 1/100; the instruction clock is set to that
sample, which is also the one compared for the tick. -/
theorem test_scheduler_key_arrives :
    afterStep (answering (poke { s0 with runState := .running, waiting := true, now := 1 / 100, dt := 9 } 0x200
        [0xF2, 0x0A]) { Answers.none with keys := [some 7] })
      (fun t => (t.waiting, t.getV 2, t.dt, decide (t.tCycle = 1 / 100), t.calls)) =
      some (false, 7, 9, true, [.render, .waitForKey 7]) := by decide +kernel

/-- R225: the answer of an attached Input is the poll's; a cancellation sampled now closes it and the Input is not
asked. -/
theorem test_pollOpen :
    (running 0 true).pollOpen.1 = true ∧ (running 0 false).pollOpen.1 = false ∧
    (let p := (answering s0 { Answers.none with cancels := [true], polls := [true] }).pollOpen
     (p.1, p.2.cancelRequested, p.2.calls, p.2.answers.polls)) = (false, true, [], [true]) := by decide +kernel

/-! ### The host's calls -/

/-- R40, R100, R288: with no driver call in progress and no host call pending nothing happens, whatever stands at PC;
a call of `step()` only puts the Debugger in progress. -/
theorem test_stands_still : step (poke s0 0x200 [0x60, 0x07]) = .next (poke s0 0x200 [0x60, 0x07]) ∧
    afterStep { poke s0 0x200 [0x60, 0x07] with hostCalls := [.debuggerStep] }
      (fun t => (t.getV 0, t.pc, t.control, t.hostCalls)) = some (0, 0x200, .stepping, []) := ⟨rfl, by decide⟩

/-- The reply of one host call. -/
def replyOf (s : State) (c : HostCall) : Option (List HostReply) :=
  afterStep { s with hostCalls := [c] } (fun t => t.hostReplies)

/-- T191, T192, T193; and telling the Input about a key returns. -/
theorem test_memoryDump : replyOf (poke s0 0x200 [0x60, 0x00, 0x61, 0x05]) (.memoryDump 0x200 0x203) =
      some [.bytes [0x60, 0x00, 0x61, 0x05]] ∧
    replyOf s0 (.memoryDump 0x204 0x203) = some [.dumpError] ∧
    replyOf s0 (.memoryDump 0xFFE 0x1001) = some [.bytes [0, 0, 0, 0]] ∧
    replyOf s0 (.setKey 5 true) = some [.done] := by decide

/-- T206 to T208. -/
theorem test_readWord_writeWord : replyOf s0 (.readWord 4095) = some [.absent] ∧
    replyOf s0 (.writeWord 4095 0xBEEF) = some [.flag false] ∧
    afterStep { s0 with hostCalls := [.writeWord 0x300 0xBEEF] } (fun t => t.memReadBytes 0x300 2) =
      some [0xBE, 0xEF] := by decide

/-- T205: nothing beyond the image changes. -/
theorem test_loadProgram : afterStep { poke s0 0x200 [1, 2, 3] with hostCalls := [.loadProgram [0x12, 0x00]] }
    (fun t => (t.memReadBytes 0x200 4, t.hostReplies)) = some ([0x12, 0x00, 3, 0], [.flag true]) := by decide

/-- T188. -/
theorem test_breakpoint_set : eraseBreakpoint 0x204 (insertBreakpoint 0x204 (insertBreakpoint 0x204 [])) = [] ∧
    insertBreakpoint 0x300 (insertBreakpoint 0x204 [0x400]) = [0x204, 0x300, 0x400] := by decide

/-- T201: the interpreter reset erases the program and leaves BP. -/
theorem test_interpreterReset :
    afterStep { (poke s0 0x200 [1]).setV 3 9 with sp := 2, bp := [0x300], hostCalls := [.interpreterReset] }
      (fun t => (t.mem, t.getV 3, t.sp, t.pc, t.bp)) = some ([], 0, 0, 0x200, [0x300]) := by decide

/-! ### Witnesses: for each obligation with hypotheses, a state and operands that meet them together -/

/-- A state of no special kind: two bytes listed, three entries on the stack, a breakpoint, PC odd and high. -/
def sOdd : State :=
  { poke s0 0xFFE [0xAA, 0xBB] with
    pc := 0xFFD
    i := 0xFFE
    sp := 3
    bp := [0x204, 0x300]
    tCycle := 1 / 4
    tTimer := 1 / 8
    now := 1 / 2 }

/-- A waiting `F20A` under the Scheduler, due at its sample, whose Input has no key yet. -/
def sWaiting : State :=
  answering { poke s0 0x200 [0xF2, 0x0A] with runState := .running, waiting := true, now := 1 / 100 }
    { Answers.none with keys := [none] }

/-- The same inside `step()`. -/
def sWaitingDebugger : State := { sWaiting with runState := .idle, control := .stepping }

theorem witness_DecodeInvertsEncode :
    (Instr.op5xy0 1 2 7).wellFormed = true ∧ (Instr.opUnrecognized 0x8128).wellFormed = true := by decide

/-- A word that selects a row, and one that selects none. -/
theorem witness_DecodeFollowsTheOpcodeMap :
    (OpcodeRow.mk "8xy4" 0x8004 0xF00F) ∈ opcodeRows ∧
    (OpcodeRow.mk "8xy4" 0x8004 0xF00F).selectedBy 0x8124 = true ∧ recognized 0x8128 = false := by
  refine ⟨by simp [opcodeRows, opcodeRowsAlu], by decide, by decide⟩

theorem witness_FetchIsBigEndianWithAbsentBytesZero :
    ({ s0 with pc := 0xFFF } : State).pc.toNat = 0xFFF ∧ 0x1000 ≤ ({ s0 with pc := 0x1000 } : State).pc.toNat := by decide

/-- `6007` at PC in an attempt and in a due iteration; and a waiting `F20A` in an attempt and in an iteration. -/
theorem witness_StepRunsTheDecodedInstruction :
    ((Instr.op6xnn 0 7).wellFormed = true ∧ (stepping [] true).memRead 0x200 = hiByte (encode (.op6xnn 0 7)) ∧
      (stepping [] true).memRead 0x201 = loByte (encode (.op6xnn 0 7)) ∧ (stepping [] true).pc = 0x200 ∧
      (stepping [] true).turn = .debugger ∧ AttemptFrom (stepping [] true) (stepping [] true).pollOpen.2) ∧
    ((running (1 / 500) true).memRead 0x200 = hiByte (encode (.op6xnn 0 7)) ∧
      (running (1 / 500) true).memRead 0x201 = loByte (encode (.op6xnn 0 7)) ∧
      (running (1 / 500) true).turn = .scheduler ∧
      IterationFrom (running (1 / 500) true) (running (1 / 500) true).pollOpen.2.sampleNow ∧
      (running (1 / 500) true).pollOpen.2.sampleNow.cycleDue = true) ∧
    (sWaitingDebugger.turn = .debugger ∧ AttemptFrom sWaitingDebugger sWaitingDebugger) ∧
    sWaiting.turn = .scheduler ∧ IterationFrom sWaiting sWaiting ∧ sWaiting.cycleDue = true :=
  ⟨by decide, ⟨by decide +kernel, by decide +kernel, rfl, .inl ⟨rfl, _, rfl, rfl⟩, by decide +kernel⟩,
    ⟨rfl, .inr ⟨rfl, rfl⟩⟩, rfl, .inr ⟨rfl, rfl⟩, by decide +kernel⟩

theorem witness_PlacedWordIsWhatTheNextStepRuns : sOdd.wf ∧ sWaiting.wf := by decide +kernel

/-- An empty and a full stack. -/
theorem witness_ReturnPopsThenAddsTwo :
    s0.sp.toNat ≤ 16 ∧ s0.sp = 0 ∧ ({ s0 with sp := 16 } : State).sp.toNat ≤ 16 ∧ ({ s0 with sp := 16 } : State).sp ≠ 0 := by
  decide

/-- The last free slot, and no free slot. -/
theorem witness_CallPushesItsOwnAddressAndJumps :
    ({ s0 with sp := 15 } : State).sp.toNat < 16 ∧ ({ s0 with sp := 16 } : State).sp.toNat = 16 := by decide

theorem witness_JumpSetsPcOnly : s0.pc.toNat = (0x200 : Addr12).toNat := by decide

theorem witness_LogicAndAddImmediateWriteOneRegister : (15 : Reg) ≠ 0 := by decide

/-- The settled draw of `RandomByteIsMasked`, and a bit that its mask 0x0F clears. -/
theorem witness_RandomByteIsMasked :
    (answering s0 { Answers.none with random := [0xA7] }).answers.random = 0xA7 :: [] ∧
    (0x0F : Byte).getLsbD 7 = false := by decide

/-- The three bytes of `Fx33` at the end of memory, the last one outside; and a byte it does not store to. -/
theorem witness_BcdStoresThreeDigits : Memory.wf sOdd.config.glyph sOdd.mem ∧
    0xFFE < 4096 ∧ 0xFFE = sOdd.effAddr 0 ∧ 0xFFF < 4096 ∧ 0xFFF = sOdd.effAddr 1 ∧
    ({ s0 with i := 0xFFD } : State).effAddr 2 = 0xFFF ∧ storesTo (.opFx33 0) sOdd 0xFFD = false := by decide

/-- A byte stored, a byte dropped, and an address outside the range of `F355`. -/
theorem witness_StoreRegistersWritesAscendingBytes : Memory.wf sOdd.config.glyph sOdd.mem ∧
    ((1 : Reg) ≤ 3 ∧ sOdd.effAddr (1 : Reg).val < 4096) ∧ ((2 : Reg) ≤ 3 ∧ ¬ sOdd.effAddr (2 : Reg).val < 4096) ∧
    ∀ k : Reg, k ≤ 3 → 0xFFD ≠ sOdd.effAddr k.val := by decide

theorem witness_LoadRegistersReadsAscendingBytes : (2 : Reg) ≤ 2 ∧ ¬ (3 : Reg) ≤ 2 := by decide

/-- An Input with a settled answer, and no Input. -/
theorem witness_KeySkipsFollowTheInput :
    (s0.config.hasInput = true ∧
      (answering s0 { Answers.none with keysDown := [true] }).answers.keysDown = true :: []) ∧
    sHeadless.config.hasInput = false := by decide

/-- An Input with a key, an Input with none yet, and no Input. -/
theorem witness_KeyWaitHoldsUntilAKeyArrives :
    (s0.config.hasInput = true ∧
      (answering s0 { Answers.none with keys := [some 15] }).answers.keys = some 15 :: []) ∧
    sWaiting.answers.keys = none :: [] ∧ sHeadless.config.hasInput = false := by decide

theorem witness_WaitingSuspendsTheDriver :
    (sWaiting.wf ∧ sWaiting.waiting = true ∧ sWaiting.answerKey.1 = none) ∧
    sWaitingDebugger.wf ∧ sWaitingDebugger.waiting = true ∧ sWaitingDebugger.answerKey.1 = none := by
  decide +kernel

/-- No Display, an oracle Display with a settled answer, the reference Display. -/
theorem witness_DrawPassesTheSpriteAndWritesVf :
    sHeadless.config.hasDisplay = false ∧ (s0.config.hasDisplay = true ∧ s0.config.display = .oracle ∧
      (answering s0 { Answers.none with collisions := [true] }).answers.collisions = true :: []) ∧
    (sRef.config.hasDisplay = true ∧ sRef.config.display = .reference) ∧ 4 < (5 : Nibble).toNat := by decide

/-- One row `0x80` at (63, 31) of a 64 × 32 display covers pixel 2047 and no other. -/
theorem witness_ReferenceDrawXorsTheSprite : [5, 2047].Pairwise (· < ·) ∧ 8 ≤ defaultConfig.displayW ∧
    [(0x80 : Byte)].length ≤ defaultConfig.displayH ∧ CoveredBySprite defaultConfig 63 31 [0x80] 2047 ∧
    ¬ CoveredBySprite defaultConfig 63 31 [] 5 :=
  ⟨by decide, by decide, by decide, ⟨0, 0, 0x80, by decide, by decide, by decide, by decide⟩,
    fun ⟨_, _, _, h, _⟩ => by simp at h⟩

/-- The largest SP that runs, and the smallest that is refused. -/
theorem witness_EveryInstructionCompletes :
    ({ s0 with sp := 16 } : State).sp.toNat ≤ 16 ∧
    exec .op00EE { s0 with sp := 17 } = .refused .illFormedStackPointer := ⟨by decide, rfl⟩

/-- One instruction of each advance class, the largest direct target, and an `Fx0A` that waits and one that does not. -/
theorem witness_PcMovesByItsAdvanceClass :
    (∃ t, exec (.op6xnn 0 1) s0 = .next t ∧ advanceClass (.op6xnn 0 1) = .default ∧
      isKeyWait (.op6xnn 0 1) = false) ∧
    (∃ t, exec (.op3xnn 0 0) s0 = .next t ∧ advanceClass (.op3xnn 0 0) = .skip) ∧
    (∃ t, exec (.opBnnn 0xFFF) (s0.setV 0 0xFF) = .next t ∧ advanceClass (.opBnnn 0xFFF) = .direct ∧
      directTarget (.opBnnn 0xFFF) (s0.setV 0 0xFF) = 0x10FE) ∧
    (∃ t, exec .op00EE s0 = .next t ∧ advanceClass .op00EE = .ret) ∧
    (∃ t, exec (.opFx0A 2) sHeadless = .next t ∧ advanceClass (.opFx0A 2) = .default ∧ t.waiting = false) ∧
    ∃ t, exec (.opFx0A 2) sWaiting = .next t ∧ isKeyWait (.opFx0A 2) = true ∧ t.waiting = true :=
  ⟨⟨_, rfl, rfl, rfl⟩, ⟨_, rfl, rfl⟩, ⟨_, rfl, rfl, by decide⟩, ⟨_, rfl, rfl⟩, ⟨_, rfl, rfl, rfl⟩, ⟨_, rfl, rfl, rfl⟩⟩

theorem witness_OnlyNamedRegistersAreWritten :
    (∃ t, exec (.op8xy4 1 2) s0 = .next t) ∧ mayWriteV (.op8xy4 1 2) s0 2 = false := ⟨⟨_, rfl⟩, by decide⟩

theorem witness_OnlyStoresWriteMemory : Memory.wf sOdd.config.glyph sOdd.mem ∧
    (∃ t, exec (.opFx55 3) sOdd = .next t) ∧ storesTo (.opFx55 3) sOdd 0xFFD = false :=
  ⟨by decide, ⟨_, rfl⟩, by decide⟩

theorem witness_SpecialRegistersHaveOnlyTheirWriters : ∃ t, exec (.opFx1E 0) sOdd = .next t := ⟨_, rfl⟩

theorem witness_InstructionsLeaveTheControlPlaneAlone : ∃ t, exec .op00E0 sOdd = .next t := ⟨_, rfl⟩

theorem witness_TheDebuggerIsInvisibleToTheProgram : ∃ t, cycle sOdd = .next t := ⟨_, rfl⟩

theorem witness_NoInstructionReadsTheSoundTimer :
    (∃ t, exec (.opFx07 0) sOdd = .next t) ∧ ∀ x, Instr.opFx07 0 ≠ .opFx18 x :=
  ⟨⟨_, rfl⟩, fun _ h => nomatch h⟩

/-- A timer at 1, and one at 0. -/
theorem witness_TimerTickDecrementsEachTimer :
    0 < ({ s0 with dt := 1 } : State).dt.toNat ∧ s0.dt = 0 ∧ 0 < ({ s0 with st := 1 } : State).st.toNat ∧ s0.st = 0 := by
  decide

/-- The call pending; a settled time, a negative one that counts as 0, and none settled. -/
theorem witness_RunEntryStartsBothClocks :
    ({ sOdd with hostCalls := [.runScheduler] }.turn = .host ∧
      { sOdd with hostCalls := [.runScheduler] }.hostCalls = .runScheduler :: []) ∧
    (running (1 / 50) true).answers.elapsed = 1 / 50 :: [] ∧ (running (-1) true).answers.elapsed = -1 :: [] ∧
    sOdd.answers.elapsed = [] := by decide +kernel

/-- Both clocks exactly at their periods: a cycle that completes, and the tick's test; neither due; an `Fx0A` that goes
on to wait; and one whose key arrives. -/
theorem witness_SchedulerIterationIsTimed :
    (running (1 / 60) true).turn = .scheduler ∧
    (IterationFrom (running (1 / 60) true) (running (1 / 60) true).pollOpen.2.sampleNow ∧
      (let u := (running (1 / 60) true).pollOpen.2.sampleNow
       1 / 500 ≤ u.now - u.tCycle ∧ 1 / 60 ≤ u.now - u.tTimer ∧ u.fetchInstr = .op6xnn 0 7)) ∧
    (let u := (running (1 / 500) true).pollOpen.2.sampleNow
     1 / 500 ≤ u.now - u.tCycle ∧ u.now - u.tTimer < 1 / 60) ∧
    ((running (1 / 1000) true).waiting = false ∧
      (let u := (running (1 / 1000) true).pollOpen.2.sampleNow
       u.now - u.tCycle < 1 / 500 ∧ u.now - u.tTimer < 1 / 60)) ∧
    (sWaiting.turn = .scheduler ∧ IterationFrom sWaiting sWaiting ∧ 1 / 500 ≤ sWaiting.now - sWaiting.tCycle ∧
      ∃ t, cycle sWaiting = .next t ∧ t.waiting = true) ∧
    ∃ t, cycle (answering sWaiting { Answers.none with keys := [some 7] }) = .next t ∧ t.waiting = false :=
  ⟨rfl, ⟨.inl ⟨rfl, _, rfl, rfl⟩, by decide +kernel⟩, by decide +kernel, by decide +kernel,
    ⟨rfl, .inr ⟨rfl, rfl⟩, by decide +kernel, _, rfl, rfl⟩, _, rfl, rfl⟩

/-- The Input closed, a cancellation request, no Input, and a settled sample of the request with a settled answer. -/
theorem witness_SchedulerStopsAtAClosedPoll :
    ((running 0 false).turn = .scheduler ∧ (running 0 false).waiting = false ∧ (running 0 false).pollOpen.1 = false) ∧
    ({ s0 with cancelRequested := true } : State).cancelRequested = true ∧ sHeadless.config.hasInput = false ∧
    ((running 0 false).cancelRequested = false ∧ (running 0 false).answers.cancels = false :: [] ∧
      (running 0 false).config.hasInput = true ∧ (running 0 false).answers.polls = false :: []) ∧
    (answering s0 { Answers.none with cancels := [true] }).answers.cancels = true :: [] ∧
    (answering sHeadless { Answers.none with cancels := [false] }).answers.cancels = false :: [] := by
  decide +kernel

theorem witness_SchedulerRatesAreBounded :
    (running (1 / 50) true).turn = .scheduler ∧ afterStep (running (1 / 50) true) (fun _ => ()) = some () := by
  decide +kernel

theorem witness_ConcurrentDriversAreRefused :
    ({ s0 with runState := .running, control := .stepping } : State).runState = .running ∧
    ({ s0 with runState := .running, control := .stepping } : State).control ≠ .halted := by decide

/-- Closure, a breakpoint, an instruction that completes, an `Fx0A` that goes on to wait, and one whose key arrives. -/
theorem witness_DebuggerStepOutcomes :
    ((stepping [] true).runState ≠ .running ∧ (stepping [] true).control = .stepping ∧
      (stepping [] true).waiting = false) ∧
    (stepping [0x200] false).pollOpen.1 = false ∧
    ((stepping [0x200] true).pollOpen.1 = true ∧
      (stepping [0x200] true).pollOpen.2.pc ∈ (stepping [0x200] true).pollOpen.2.bp) ∧
    (AttemptFrom (stepping [] true) (stepping [] true).pollOpen.2 ∧
      (stepping [] true).pollOpen.2.fetchInstr = .op6xnn 0 7) ∧
    (sWaitingDebugger.runState ≠ .running ∧ sWaitingDebugger.control = .stepping ∧
      AttemptFrom sWaitingDebugger sWaitingDebugger ∧ ∃ t, cycle sWaitingDebugger = .next t ∧ t.waiting = true) ∧
    ∃ t, cycle (answering sWaitingDebugger { Answers.none with keys := [some 7] }) = .next t ∧ t.waiting = false :=
  ⟨by decide, by decide, by decide, by decide, ⟨by decide, rfl, .inr ⟨rfl, rfl⟩, _, rfl, rfl⟩, _, rfl, rfl⟩

/-- An attempt that executes, one that hits a breakpoint, and one whose `Fx0A` waits. -/
theorem witness_ContinueIsRepeatedStep :
    (stepping [] true).runState ≠ .running ∧
    afterStep (stepping [] true) (fun t => t.hostReplies) = some [.outcome .executed] ∧
    afterStep (stepping [0x200] true) (fun t => t.hostReplies) = some [.outcome (.breakpointHit 0x200)] ∧
    afterStep sWaitingDebugger (fun t => (t.control, t.hostReplies)) =
      some (.stepping, []) := by decide +kernel

/-- A member and a non-member of a rising list, and each of the four calls pending. -/
theorem witness_BreakpointOperationsAreSetOperations :
    ([(0x204 : Word), 0x300].Pairwise (· < ·) ∧ (0x300 : Word) ∈ [(0x204 : Word), 0x300] ∧
      (0x205 : Word) ∉ [(0x204 : Word), 0x300]) ∧
    ∀ c ∈ [HostCall.addBreakpoint 0x300, .removeBreakpoint 0x204, .clearBreakpoints, .hasBreakpoint 0xFFFF],
      { sOdd with hostCalls := [c] }.turn = .host ∧ { sOdd with hostCalls := [c] }.hostCalls = c :: [] := by decide

/-- A snapshot, an inverted range, and a range of one byte. -/
theorem witness_InspectionReadsWithoutChanging :
    { s0 with hostCalls := [.inspectRegister] }.turn = .host ∧
    { s0 with hostCalls := [.memoryDump 0x204 0x203] }.turn = .host ∧ 0x203 < 0x204 ∧
    { s0 with hostCalls := [.memoryDump 0xFFF 0xFFF] }.turn = .host ∧ 0xFFF ≤ 0xFFF := by decide

/-- The last byte, and the first address beyond. -/
theorem witness_ByteAccessIsBoundedAndReadsTheLastWrite :
    4096 ≤ 4096 ∧ 4095 < 4096 ∧ Memory.wf sOdd.config.glyph sOdd.mem := by decide

/-- The last word, and the word that would end beyond memory. -/
theorem witness_WordAccessIsBigEndianAllOrNothing :
    4096 ≤ 4095 + 1 ∧ 4094 + 1 < 4096 ∧ Memory.wf sOdd.config.glyph sOdd.mem := by decide

/-- The longest image that fits, and one byte more (S3). -/
theorem witness_LoadProgramPlacesTheImage : Memory.wf sOdd.config.glyph sOdd.mem ∧
    (List.replicate 3584 (0xAA : Byte)).length ≤ 3584 ∧ 3584 < (List.replicate 3585 (0xAA : Byte)).length :=
  ⟨by decide, by rw [List.length_replicate], by rw [List.length_replicate]; omega⟩

/-- The last free slot, a full stack, an empty stack. -/
theorem witness_PopReturnsTheLastPush :
    ({ s0 with sp := 15 } : State).sp.toNat < 16 ∧ ({ s0 with sp := 16 } : State).sp.toNat = 16 ∧ s0.sp = 0 := by decide

/-- The first byte above the glyph table, and the last byte of memory. -/
theorem witness_ConstructionLeavesTheResetState :
    (80 ≤ 80 ∧ 80 < 4096) ∧ (80 ≤ 4095 ∧ 4095 < 4096) ∧ sOdd.config = defaultConfig := by decide

theorem witness_ComponentResetsRestoreTheirComponents : (80 ≤ 80 ∧ 80 < 4096) ∧ (80 ≤ 4095 ∧ 4095 < 4096) := by decide

theorem witness_EveryStepKeepsTheStateWellFormed :
    (sOdd.wf ∧ afterStep { sOdd with hostCalls := [.pop] } (fun _ => ()) = some ()) ∧ sWaiting.wf ∧ afterStep sWaiting (fun _ => ()) = some () := by
  decide +kernel

theorem witness_WellFormedStatesAlwaysStep : sOdd.wf ∧ (running (1 / 50) true).wf ∧ (stepping [0x200] true).wf :=
  ⟨by decide +kernel, by decide +kernel, by decide +kernel⟩

/-- Nothing pending, a call that starts a driver, and one that writes the Interpreter. -/
theorem witness_TheInterpreterStandsStillBetweenCalls :
    (sOdd.turn = .host ∧ sOdd.hostCalls = []) ∧
    (∃ t, step { sOdd with hostCalls := [.continueExecution] } = .next t) ∧
    writesInterpreter .continueExecution = false ∧ writesInterpreter .pop = true := ⟨by decide, ⟨_, rfl⟩, rfl, rfl⟩

/-- Each kind of call pending with no driver in progress; the last SP that runs and the first that is refused. -/
theorem witness_TheInterpreterStandsStillBetweenCalls_component :
    (∀ c ∈ [HostCall.interpreterReset, .memoryReset, .registerReset, .stackReset, .loadProgram [0x60, 0x07],
        .loadGlyphTable conventionalFont, .readByte 0x1000, .readWord 0xFFF, .writeByte 0xFFF 1, .writeWord 0xFFE 1,
        .rawView, .push 0x300, .pop],
      { sOdd with hostCalls := [c] }.turn = .host ∧ { sOdd with hostCalls := [c] }.hostCalls = c :: []) ∧
    Memory.wf sOdd.config.glyph sOdd.mem ∧ ({ sOdd with sp := 16 } : State).sp.toNat ≤ 16 ∧
    16 < ({ sOdd with sp := 17 } : State).sp.toNat := by decide

/-- Each call pending; no Display, the last pixel of the reference Display, an oracle Display. -/
theorem witness_TheInterpreterStandsStillBetweenCalls_control :
    (∀ c ∈ [HostCall.debuggerStep, .continueExecution, .setCancelRequested, .constructDebugger, .isAtBreakpoint,
        .setKey 5 true, .getPixel 63 31],
      { sOdd with hostCalls := [c] }.turn = .host ∧ { sOdd with hostCalls := [c] }.hostCalls = c :: []) ∧
    sHeadless.config.display = .absent ∧
    (sRef.config.display = .reference ∧ 63 < sRef.config.displayW ∧ 31 < sRef.config.displayH) ∧
    s0.config.display ≠ .absent := by decide

end Sys2Proof.Tests
end

section
/-! SUPPORT. The component operations and the host's calls (spec/20_memory.md R53 to R60, spec/10_state.md R30 to R33,
spec/70_reset_and_hazards.md R312): what each leaves unchanged, and that the queue of calls plays no part in it. -/

namespace Sys2Proof.Machine

/-! ### Stores change nothing but memory -/

theorem writeByte_only (s : State) (a : Nat) (b : Byte) :
    (s.writeByte a b).2 = { s with mem := (s.writeByte a b).2.mem } :=
  memWrite_only s a b

/-- `writeWord` is two stores of the instruction layer where both bytes are in memory, else nothing (R56). -/
theorem writeWord_cases (s : State) (a : Nat) (w : Word) :
    (a + 1 < 4096 ∧ s.writeWord a w = (true, s.memWriteBytes a [hiByte w, loByte w])) ∨
      (4096 ≤ a + 1 ∧ s.writeWord a w = (false, s)) := by
  unfold State.writeWord
  by_cases h : a + 1 < 4096
  · refine .inl ⟨h, ?_⟩
    rw [if_pos (by simp only [Bool.and_eq_true, inRange_iff]; omega)]
    rfl
  · refine .inr ⟨by omega, ?_⟩
    rw [if_neg (by simp only [Bool.and_eq_true, inRange_iff]; omega)]

theorem writeWord_only (s : State) (a : Nat) (w : Word) :
    (s.writeWord a w).2 = { s with mem := (s.writeWord a w).2.mem } := by
  rcases writeWord_cases s a w with ⟨-, h⟩ | ⟨-, h⟩ <;> rw [h]
  exact memWriteBytes_only s a _

/-- `loadProgram` stores the image at 0x200, or does nothing (R58). -/
theorem loadProgram_cases (s : State) (bytes : List Byte) :
    (bytes.length ≤ 3584 ∧ s.loadProgram bytes = (true, s.memWriteBytes 0x200 bytes)) ∨
      (3584 < bytes.length ∧ s.loadProgram bytes = (false, s)) := by
  unfold State.loadProgram maxProgram
  by_cases h : 3584 < bytes.length
  · exact .inr ⟨h, if_pos h⟩
  · exact .inl ⟨by omega, if_neg h⟩

theorem loadProgram_only (s : State) (bytes : List Byte) :
    (s.loadProgram bytes).2 = { s with mem := (s.loadProgram bytes).2.mem } := by
  rcases loadProgram_cases s bytes with ⟨-, h⟩ | ⟨-, h⟩ <;> rw [h]
  exact memWriteBytes_only s _ bytes

theorem loadGlyphTable_only (s : State) (g : GlyphTable) :
    s.loadGlyphTable g = { s with mem := (s.loadGlyphTable g).mem } :=
  memWriteBytes_only s _ _

/-- The glyph table lies at 0 after it is loaded, and every other byte is as it was (R57). -/
theorem readByte_loadGlyphTable {s : State} (g : GlyphTable) (h : Memory.wf s.config.glyph s.mem) (a : Nat) :
    (s.loadGlyphTable g).readByte a = if h : a < 80 then some g[a] else s.readByte a := by
  unfold State.loadGlyphTable glyphBase
  rw [readByte_memWriteBytes 0 _ a h]
  simp only [Nat.zero_le, Nat.sub_zero, Vector.length_toList, true_and]
  by_cases ha : a < 80
  · rw [if_pos (by omega), dif_pos ha]
    simp [ha]
  · rw [if_neg (by omega), dif_neg ha]

/-! ### What memory with nothing listed holds (R45, R60) -/

theorem readByte_of_mem_nil {s : State} (h : s.mem = []) (a : Nat) :
    s.readByte a = if a < 4096 then some (fillByte s.config.glyph a) else none := by
  rw [readByte_eq, h]
  rfl

theorem readByte_glyph_of_mem_nil {s : State} (h : s.mem = []) (k : Fin 80) :
    s.readByte k.val = some s.config.glyph[k] := by
  have hk := k.isLt
  rw [readByte_of_mem_nil h, if_pos (by omega), fillByte, dif_pos hk]
  rfl

theorem readByte_zero_of_mem_nil {s : State} (h : s.mem = []) {a : Nat} (hlo : 80 ≤ a) (hhi : a < 4096) :
    s.readByte a = some 0 := by
  rw [readByte_of_mem_nil h, if_pos hhi, fillByte, dif_neg (by omega)]

theorem getV_of_v_zero {s : State} (h : s.v = Vector.replicate 16 0) (k : Reg) : s.getV k = 0 := by
  simp [State.getV, h]

theorem slot_of_stack_zero {s : State} (h : s.stack = Vector.replicate 16 0) (k : Nat) : s.slot k = 0 := by
  unfold State.slot
  split
  · simp [h]
  · rfl

/-! ### The queue of host calls plays no part in a component operation -/

theorem readByte_hostCalls (s : State) (q : List HostCall) (a : Nat) :
    ({ s with hostCalls := q } : State).readByte a = s.readByte a := rfl

theorem readWord_hostCalls (s : State) (q : List HostCall) (a : Nat) :
    ({ s with hostCalls := q } : State).readWord a = s.readWord a := rfl

theorem writeByte_hostCalls (s : State) (q : List HostCall) (a : Nat) (b : Byte) :
    ({ s with hostCalls := q } : State).writeByte a b =
      ((s.writeByte a b).1, { (s.writeByte a b).2 with hostCalls := q }) := by
  simp only [State.writeByte]
  split <;> rfl

theorem writeWord_hostCalls (s : State) (q : List HostCall) (a : Nat) (w : Word) :
    ({ s with hostCalls := q } : State).writeWord a w =
      ((s.writeWord a w).1, { (s.writeWord a w).2 with hostCalls := q }) := by
  simp only [State.writeWord, writeByte_hostCalls]
  split <;> rfl

theorem loadProgram_hostCalls (s : State) (q : List HostCall) (bytes : List Byte) :
    ({ s with hostCalls := q } : State).loadProgram bytes =
      ((s.loadProgram bytes).1, { (s.loadProgram bytes).2 with hostCalls := q }) := by
  simp only [State.loadProgram, memWriteBytes_hostCalls]
  split <;> rfl

theorem loadGlyphTable_hostCalls (s : State) (q : List HostCall) (g : GlyphTable) :
    ({ s with hostCalls := q } : State).loadGlyphTable g = { s.loadGlyphTable g with hostCalls := q } :=
  memWriteBytes_hostCalls s q _ _

theorem push_hostCalls (s : State) (q : List HostCall) (a : Word) :
    ({ s with hostCalls := q } : State).push a = ((s.push a).1, { (s.push a).2 with hostCalls := q }) := by
  simp only [State.push, State.setSlot]
  split
  · split <;> rfl
  · rfl

theorem pop_hostCalls (s : State) (q : List HostCall) :
    ({ s with hostCalls := q } : State).pop = (s.pop.1, { s.pop.2 with hostCalls := q }) := by
  simp only [State.pop]
  split <;> rfl

theorem displayPixel_hostCalls (s : State) (q : List HostCall) (col row : Nat) :
    ({ s with hostCalls := q } : State).displayPixel col row =
      ((s.displayPixel col row).1, { (s.displayPixel col row).2 with hostCalls := q }) := by
  simp only [State.displayPixel]
  split
  · rfl
  · rfl
  · split <;> rfl

/-! ### The answers of a read -/

/-- The `rawView` reply is the 4096 bytes of memory. -/
theorem rawView_getElem? (s : State) (k : Nat) (hk : k < 4096) : (s.memReadBytes 0 memSize)[k]? = s.readByte k := by
  rw [memReadBytes_getElem? s 0 memSize k hk, Nat.zero_add, memRead_eq, readByte_eq, if_pos hk, if_pos hk]

/-! ### The pixel test -/

theorem displayPixel_absent {s : State} (h : s.config.display = .absent) (col row : Nat) :
    s.displayPixel col row = (none, s) := by
  simp [State.displayPixel, h]

/-- Inside the reference Display the answer is the pixel (R204). -/
theorem displayPixel_reference {s : State} (h : s.config.display = .reference) {col row : Nat}
    (hc : col < s.config.displayW) (hr : row < s.config.displayH) :
    s.displayPixel col row = (some (decide (row * s.config.displayW + col ∈ s.pixels)), s) := by
  simp [State.displayPixel, h, hc, hr, pixelIndex, Nat.mod_eq_of_lt]

/-- An attached Display answers, and at most a free answer is taken (R200). -/
theorem displayPixel_attached {s : State} (h : s.config.display ≠ .absent) (col row : Nat) :
    ∃ b d, s.displayPixel col row = (some b, { s with draws := d }) := by
  unfold State.displayPixel
  split
  next habs => exact absurd habs h
  next => exact ⟨_, _, rfl⟩
  next =>
    split
    · exact ⟨_, _, rfl⟩
    · exact ⟨_, _, rfl⟩

/-! ### `push` and `pop` -/

theorem push_only (s : State) (a : Word) :
    (s.push a).2 = { s with sp := (s.push a).2.sp, stack := (s.push a).2.stack } := by
  rcases push_cases s a with ⟨_, h⟩ | ⟨-, h⟩ <;> rw [h]

theorem pop_only (s : State) : s.pop.2 = { s with sp := s.pop.2.sp } := by
  rcases pop_cases s with ⟨-, h⟩ | ⟨-, h⟩ <;> rw [h]

/-- A push that fits takes the slot at SP and moves SP up by 1 (R31). -/
theorem push_of_lt {s : State} (h : s.sp.toNat < 16) (a : Word) :
    (s.push a).1 = true ∧ (s.push a).2.sp = s.sp + 1 ∧
      ∀ k, (s.push a).2.slot k = if k = s.sp.toNat then a else s.slot k := by
  rcases push_cases s a with ⟨_, hp⟩ | ⟨hge, -⟩
  · rw [hp]
    refine ⟨rfl, rfl, fun k => ?_⟩
    by_cases hk : k = s.sp.toNat
    · simp [State.slot, hk, h]
    · simp [State.slot, hk, Ne.symm hk]
  · omega

/-! ### `push` and `pop` as host calls (R27, R31, R32) -/

theorem hostPush_eq (s : State) (a : Word) :
    hostPush a s = if s.sp.toNat ≤ 16 then .next ((s.push a).2.reply (.flag (s.push a).1))
      else .refused .illFormedStackPointer := by
  simp only [hostPush, stackOk_iff]

/-- What `pop` gives the host: the popped value, or that the stack was empty. -/
def popReply : Option Word → HostReply
  | some w => .word w
  | none => .popFailed

theorem hostPop_eq (s : State) :
    hostPop s = if s.sp.toNat ≤ 16 then .next (s.pop.2.reply (popReply s.pop.1))
      else .refused .illFormedStackPointer := by
  simp only [hostPop, stackOk_iff]
  rfl

/-! ### The breakpoint set (R38, R242) -/

theorem mem_insertBreakpoint (a b : Word) (bp : List Word) : b ∈ insertBreakpoint a bp ↔ b = a ∨ b ∈ bp := by
  induction bp with
  | nil => simp [insertBreakpoint]
  | cons c rest ih =>
    simp only [insertBreakpoint]
    split
    · simp only [List.mem_cons, ih]
      tauto
    · split
      next hca => simp [hca]
      next => simp

theorem mem_eraseBreakpoint (a b : Word) (bp : List Word) : b ∈ eraseBreakpoint a bp ↔ b ∈ bp ∧ b ≠ a := by
  simp [eraseBreakpoint]

theorem insertBreakpoint_sorted (a : Word) {bp : List Word} (h : bp.Pairwise (· < ·)) :
    (insertBreakpoint a bp).Pairwise (· < ·) := by
  induction bp with
  | nil => simp [insertBreakpoint]
  | cons c rest ih =>
    obtain ⟨hc, hrest⟩ := List.pairwise_cons.1 h
    simp only [insertBreakpoint]
    split
    next hca =>
      refine List.pairwise_cons.2 ⟨fun b hb => ?_, ih hrest⟩
      rcases (mem_insertBreakpoint a b rest).1 hb with rfl | hb
      · exact hca
      · exact hc b hb
    next hca =>
      split
      · exact h
      next hne =>
        have hac : a < c := by bv_omega
        refine List.pairwise_cons.2 ⟨fun b hb => ?_, h⟩
        rcases List.mem_cons.1 hb with rfl | hb
        · exact hac
        · have hcb := hc b hb
          bv_omega

theorem eraseBreakpoint_sorted (a : Word) {bp : List Word} (h : bp.Pairwise (· < ·)) :
    (eraseBreakpoint a bp).Pairwise (· < ·) :=
  h.filter _

/-- A member added again changes nothing (R242). -/
theorem insertBreakpoint_of_mem {a : Word} {bp : List Word} (h : bp.Pairwise (· < ·)) (ha : a ∈ bp) :
    insertBreakpoint a bp = bp := by
  induction bp with
  | nil => simp at ha
  | cons c rest ih =>
    obtain ⟨hc, hrest⟩ := List.pairwise_cons.1 h
    rcases List.mem_cons.1 ha with rfl | ha
    · rw [insertBreakpoint, if_neg (by bv_omega), if_pos rfl]
    · rw [insertBreakpoint, if_pos (hc a ha), ih hrest ha]

/-- A non-member removed changes nothing (R242). -/
theorem eraseBreakpoint_of_not_mem {a : Word} {bp : List Word} (ha : a ∉ bp) : eraseBreakpoint a bp = bp := by
  refine List.filter_eq_self.2 fun b hb => ?_
  rw [bne_iff_ne]
  rintro rfl
  exact ha hb

/-! ### What a host call does, and what every one leaves alone -/

/-- The host's step is the next pending call, on the state without it in the queue. -/
theorem step_hostCall {s : State} {c : HostCall} {rest : List HostCall} (hturn : s.turn = .host)
    (hc : s.hostCalls = c :: rest) : step s = hostCall c { s with hostCalls := rest } := by
  rw [step_of_host hturn, hostStep_call hc]

/-- A host call takes no other call off the queue, calls no collaborator and awaits no key (R100, R312). -/
theorem hostCall_frame {c : HostCall} {s t : State} (h : hostCall c s = .next t) :
    t.hostCalls = s.hostCalls ∧ t.calls = s.calls ∧ t.waiting = s.waiting := by
  cases c
  case loadProgram bytes => cases h; rw [loadProgram_only]; exact ⟨rfl, rfl, rfl⟩
  case loadGlyphTable g => cases h; rw [loadGlyphTable_only]; exact ⟨rfl, rfl, rfl⟩
  case writeByte a b => cases h; rw [writeByte_only]; exact ⟨rfl, rfl, rfl⟩
  case writeWord a w => cases h; rw [writeWord_only]; exact ⟨rfl, rfl, rfl⟩
  case push a =>
    rw [hostCall, hostPush_eq] at h
    split at h
    · cases h; rw [push_only]; exact ⟨rfl, rfl, rfl⟩
    · cases h
  case pop =>
    rw [hostCall, hostPop_eq] at h
    split at h
    · cases h; rw [pop_only]; exact ⟨rfl, rfl, rfl⟩
    · cases h
  case runScheduler => cases h; unfold State.enterRun; rw [sampleNow_only]; exact ⟨rfl, rfl, rfl⟩
  case getPixel col row => cases h; rw [displayPixel_only]; exact ⟨rfl, rfl, rfl⟩
  all_goals (cases h; exact ⟨rfl, rfl, rfl⟩)

theorem sameInterpreter_refl (s : State) : SameInterpreter s s :=
  ⟨rfl, rfl, rfl, rfl, rfl, rfl, rfl, rfl, rfl⟩

/-- A host call that is none of the writing ones leaves the Interpreter as it was (R288). -/
theorem hostCall_sameInterpreter {c : HostCall} {s t : State} (h : hostCall c s = .next t)
    (hc : writesInterpreter c = false) : SameInterpreter s t := by
  cases c
  case interpreterReset | memoryReset | registerReset | stackReset | loadProgram | loadGlyphTable | writeByte
      | writeWord | push | pop => cases hc
  case runScheduler => cases h; unfold State.enterRun; rw [sampleNow_only]; exact sameInterpreter_refl s
  case getPixel col row => cases h; rw [displayPixel_only]; exact sameInterpreter_refl s
  all_goals (cases h; exact sameInterpreter_refl s)

end Sys2Proof.Machine
end

section
/-! SUPPORT. What an instruction can do to the state, kind by kind (spec/10_state.md R20 to R36): the inversion of
`exec` that the rules over all instructions are read off. -/

namespace Sys2Proof.Machine

/-- The effects an instruction can have, one constructor for each kind: what it writes beside the general registers
and PC, and, where the spec names the writers, which instruction it is. -/
inductive ExecEffect (s : State) (i : Instr) : State → Prop
  /-- General registers and PC only. -/
  | registers (v : Vector Byte 16) (pc : Word) : ExecEffect s i { s with v := v, pc := pc }
  /-- I (R26). -/
  | index (w pc : Word) (hi : (∃ nnn, i = .opAnnn nnn) ∨ (∃ x, i = .opFx1E x) ∨ ∃ x, i = .opFx29 x) :
      ExecEffect s i { s with i := w, pc := pc }
  /-- DT (R28). -/
  | delayTimer (x : Reg) (pc : Word) (hi : i = .opFx15 x) : ExecEffect s i { s with dt := s.getV x, pc := pc }
  /-- ST (R28). -/
  | soundTimer (x : Reg) (pc : Word) (hi : i = .opFx18 x) : ExecEffect s i { s with st := s.getV x, pc := pc }
  /-- Memory (R66). -/
  | store (a : Nat) (bs : List Byte) (pc : Word) : ExecEffect s i { s.memWriteBytes a bs with pc := pc }
  /-- SP, by a return (R30, R120). -/
  | ret (pc : Word) (hi : i = .op00EE) : ExecEffect s i { s.pop.2 with pc := pc }
  /-- SP and the stack, by a call (R30, R122). -/
  | call (nnn : Addr12) (pc : Word) (hi : i = .op2nnn nnn) : ExecEffect s i { (s.push s.pc).2 with pc := pc }
  /-- A byte of the random source (R153). -/
  | random (v : Vector Byte 16) (pc : Word) : ExecEffect s i { s.drawByte.2 with v := v, pc := pc }
  /-- The test of a key (R202). -/
  | keyTest (key : Byte) (pc : Word) : ExecEffect s i { (s.keyPressed key).2 with pc := pc }
  /-- The clearing of the Display (R196). -/
  | clear (pc : Word) : ExecEffect s i { s.displayClear with pc := pc }
  /-- A sprite drawn on the Display (R197). -/
  | draw (px py : Byte) (rows : List Byte) (n : Nibble) (v : Vector Byte 16) (pc : Word) :
      ExecEffect s i { (s.displayDraw px py rows n).2 with v := v, pc := pc }
  /-- A key wait with no Input completes at once (R195). -/
  | keyAbsent (v : Vector Byte 16) (pc : Word) (hi : isKeyWait i = true) :
      ExecEffect s i { s with v := v, pc := pc, waiting := false }
  /-- The awaited key arrives (R195). -/
  | keyArrives (k : Key) (v : Vector Byte 16) (pc : Word) (hi : isKeyWait i = true) :
      ExecEffect s i { s.answerKey.2.record (.waitForKey k) with v := v, pc := pc, waiting := false }
  /-- The key has not arrived yet (R203). -/
  | keyHold (hi : isKeyWait i = true) : ExecEffect s i { s.answerKey.2 with waiting := true }

theorem exec_opFx65 (x : Reg) (s : State) : exec (.opFx65 x) s = .next (s.loadRegs x s.baseAddr).advance := rfl

theorem loadRegs_only (s : State) (x : Reg) (a : Nat) :
    s.loadRegs x a = { s with v := (s.loadRegs x a).v } := rfl

theorem execEffect_writeResultAndFlag (s : State) (i : Instr) (x : Reg) (r : Byte) (f : Bool) :
    ExecEffect s i (s.writeResultAndFlag x r f).advance := by
  unfold State.advance
  rw [writeResultAndFlag_only]
  exact .registers _ _

theorem execEffect_opFx0A (s : State) (x : Reg) :
    ExecEffect s (.opFx0A x) (if s.config.hasInput then s.askForKey x else s.finishKeyWait x 0) := by
  split
  · rcases askForKey_cases s x with ⟨k, -, hk⟩ | ⟨-, hk⟩ <;> rw [hk]
    · exact .keyArrives k _ _ rfl
    · exact .keyHold rfl
  · exact .keyAbsent _ _ rfl

theorem execEffect_opDxyn (s : State) (x y : Reg) (n : Nibble) :
    ExecEffect s (.opDxyn x y n) (if s.config.hasDisplay then (s.drawSprite x y n).advance else s.advance) := by
  split
  · rw [drawSprite_eq]
    exact .draw _ _ _ _ _ _
  · exact .registers _ _

/-- Every instruction that completes has one of the effects. -/
theorem exec_effect {i : Instr} {s t : State} (h : exec i s = .next t) : ExecEffect s i t := by
  cases i
  case op00E0 => cases h; exact .clear _
  case op00EE =>
    simp only [exec, exec00EE] at h
    split at h
    · cases h; exact .ret _ rfl
    · cases h
  case op2nnn nnn =>
    simp only [exec, exec2nnn] at h
    split at h
    · cases h; exact .call nnn _ rfl
    · cases h
  case op8xy4 | op8xy5 | op8xy6 | op8xy7 | op8xyE => cases h; exact execEffect_writeResultAndFlag ..
  case opAnnn nnn => cases h; exact .index _ _ (.inl ⟨_, rfl⟩)
  case opFx1E x => cases h; exact .index _ _ (.inr (.inl ⟨_, rfl⟩))
  case opFx29 x => cases h; exact .index _ _ (.inr (.inr ⟨_, rfl⟩))
  case opCxnn x nn => cases h; exact .random _ _
  case opDxyn x y n => cases h; exact execEffect_opDxyn ..
  case opEx9E | opExA1 => cases h; exact .keyTest _ _
  case opFx0A x => cases h; exact execEffect_opFx0A ..
  case opFx15 x => cases h; exact .delayTimer x _ rfl
  case opFx18 x => cases h; exact .soundTimer x _ rfl
  case opFx33 | opFx55 => cases h; exact .store _ _ _
  case opFx65 x =>
    rw [exec_opFx65] at h
    obtain rfl := Host.Outcome.next.inj h
    unfold State.advance
    rw [loadRegs_only]
    exact .registers _ _
  all_goals (cases h; exact .registers _ _)

/-- Only `Fx0A` begins or ends a wait (R109). -/
theorem exec_waiting_of_not_keyWait {i : Instr} {s t : State} (h : exec i s = .next t) (hi : isKeyWait i = false) :
    t.waiting = s.waiting := by
  cases exec_effect h with
  | registers | index | delayTimer | soundTimer => rfl
  | store a bs => rw [memWriteBytes_only]
  | ret => rw [pop_only]
  | call => rw [push_only]
  | random => rw [drawByte_only]
  | keyTest key => rw [keyPressed_only]
  | clear => rw [displayClear_only]
  | draw px py rows n => rw [displayDraw_only]
  | keyAbsent _ _ hk | keyArrives _ _ _ hk | keyHold hk => simp [hi] at hk

/-- An instruction after which a cycle waits is an `Fx0A` with an Input attached that has asked in vain, and all else
is as it was (R109, R203), provided that nothing but an `Fx0A` was waiting before. -/
theorem exec_hold {i : Instr} {s t : State} (h : exec i s = .next t) (ht : t.waiting = true)
    (hs : s.waiting = true → isKeyWait i = true) :
    isKeyWait i = true ∧ s.config.hasInput = true ∧ t = { s.answerKey.2 with waiting := true } := by
  by_cases hi : isKeyWait i = true
  · obtain ⟨x, rfl⟩ : ∃ x, i = .opFx0A x := by
      cases i <;> simp [isKeyWait] at hi
      exact ⟨_, rfl⟩
    rw [exec_opFx0A] at h
    obtain rfl := Host.Outcome.next.inj h
    split at ht
    next hin =>
      rw [if_pos hin]
      rcases askForKey_cases s x with ⟨k, -, hk⟩ | ⟨-, hk⟩
      · rw [hk] at ht
        cases ht
      · exact ⟨hi, hin, hk⟩
    next => cases ht
  · rw [exec_waiting_of_not_keyWait h (by simpa using hi)] at ht
    exact absurd (hs ht) hi

/-! ### The calls an instruction makes -/

/-- The record of calls is as it was, or has one more that an instruction makes. -/
def AtMostOneCall (s t : State) : Prop :=
  t.calls = s.calls ∨ ∃ c, t.calls = c :: s.calls ∧ c ≠ .render ∧ ∀ b, c ≠ .pollAndContinue b

theorem keyPressed_atMostOneCall (s : State) (key : Byte) : AtMostOneCall s (s.keyPressed key).2 := by
  unfold State.keyPressed
  split
  · refine .inr ⟨.isKeyPressed key (s.answerKeyDown key).1, ?_, nofun, nofun⟩
    rw [record_calls, answerKeyDown_only]
  · exact .inl rfl

theorem displayClear_atMostOneCall (s : State) : AtMostOneCall s s.displayClear := by
  unfold State.displayClear
  split
  · exact .inl rfl
  · exact .inr ⟨.clear, rfl, nofun, nofun⟩
  · exact .inr ⟨.clear, rfl, nofun, nofun⟩

theorem displayDraw_atMostOneCall (s : State) (px py : Byte) (rows : List Byte) (n : Nibble) :
    AtMostOneCall s (s.displayDraw px py rows n).2 := by
  unfold State.displayDraw
  split
  · exact .inl rfl
  · refine .inr ⟨.drawSprite px py rows n s.answerCollision.1, ?_, nofun, nofun⟩
    rw [record_calls, answerCollision_only]
  · exact .inr ⟨_, rfl, nofun, nofun⟩

/-- An instruction makes at most one call on a collaborator, and neither renders nor polls (R110). -/
theorem exec_atMostOneCall {i : Instr} {s t : State} (h : exec i s = .next t) : AtMostOneCall s t := by
  cases exec_effect h with
  | registers | index | delayTimer | soundTimer | keyAbsent => exact .inl rfl
  | store => rw [memWriteBytes_only]; exact .inl rfl
  | ret => rw [pop_only]; exact .inl rfl
  | call => rw [push_only]; exact .inl rfl
  | random => rw [drawByte_only]; exact .inl rfl
  | keyTest key => exact keyPressed_atMostOneCall s key
  | clear => exact displayClear_atMostOneCall s
  | draw px py rows n => exact displayDraw_atMostOneCall s px py rows n
  | keyArrives => rw [answerKey_only]; exact .inr ⟨_, rfl, nofun, nofun⟩
  | keyHold => rw [answerKey_only]; exact .inl rfl

end Sys2Proof.Machine
end

section
/-! SUPPORT. The fields that no instruction reads: ST (spec/46_timer_tick.md R213), and the Debugger's breakpoints and
control state (spec/48_debugger.md R257). Every operation that an instruction is made of commutes with other values in
them. -/

namespace Sys2Proof.Machine

/-- `s` with other values in the fields that no instruction reads. -/
def State.withUnread (s : State) (b : Byte) (bp : List Word) (c : DebugControl) : State :=
  { s with st := b, bp := bp, control := c }

variable (s : State) (b : Byte) (bp : List Word) (c : DebugControl)

@[simp] theorem withUnread_config : (s.withUnread b bp c).config = s.config := rfl
@[simp] theorem withUnread_sp : (s.withUnread b bp c).sp = s.sp := rfl
@[simp] theorem getV_withUnread (k : Reg) : (s.withUnread b bp c).getV k = s.getV k := rfl

theorem writeResultAndFlag_withUnread (x : Reg) (r : Byte) (f : Bool) :
    (s.withUnread b bp c).writeResultAndFlag x r f = (s.writeResultAndFlag x r f).withUnread b bp c := by
  simp only [State.writeResultAndFlag, withUnread_config]
  split <;> rfl

theorem memWrite_withUnread (a : Nat) (v : Byte) :
    (s.withUnread b bp c).memWrite a v = (s.memWrite a v).withUnread b bp c := by
  simp only [State.memWrite, State.writeByte]
  split <;> rfl

theorem memWriteBytes_withUnread (a : Nat) (bs : List Byte) :
    (s.withUnread b bp c).memWriteBytes a bs = (s.memWriteBytes a bs).withUnread b bp c := by
  induction bs generalizing s a with
  | nil => rfl
  | cons d bs ih => simp only [State.memWriteBytes, memWrite_withUnread, ih]

theorem setSlot_withUnread (k : Nat) (w : Word) :
    (s.withUnread b bp c).setSlot k w = (s.setSlot k w).withUnread b bp c := by
  simp only [State.setSlot]
  split <;> rfl

theorem push_withUnread (a : Word) :
    (s.withUnread b bp c).push a = ((s.push a).1, (s.push a).2.withUnread b bp c) := by
  simp only [State.push, setSlot_withUnread, withUnread_sp]
  split <;> rfl

theorem pop_withUnread : (s.withUnread b bp c).pop = (s.pop.1, s.pop.2.withUnread b bp c) := by
  unfold State.pop
  rw [withUnread_sp]
  split <;> rfl

theorem drawByte_withUnread :
    (s.withUnread b bp c).drawByte = (s.drawByte.1, s.drawByte.2.withUnread b bp c) := by
  simp only [State.withUnread, State.drawByte]
  split <;> rfl

theorem answerKeyDown_withUnread (key : Byte) :
    (s.withUnread b bp c).answerKeyDown key =
      ((s.answerKeyDown key).1, (s.answerKeyDown key).2.withUnread b bp c) := by
  simp only [State.withUnread, State.answerKeyDown]
  split <;> rfl

theorem answerKey_withUnread :
    (s.withUnread b bp c).answerKey = (s.answerKey.1, s.answerKey.2.withUnread b bp c) := by
  simp only [State.withUnread, State.answerKey]
  split <;> rfl

theorem answerCollision_withUnread :
    (s.withUnread b bp c).answerCollision = (s.answerCollision.1, s.answerCollision.2.withUnread b bp c) := by
  simp only [State.withUnread, State.answerCollision]
  split <;> rfl

theorem keyPressed_withUnread (key : Byte) :
    (s.withUnread b bp c).keyPressed key = ((s.keyPressed key).1, (s.keyPressed key).2.withUnread b bp c) := by
  simp only [State.keyPressed, answerKeyDown_withUnread, withUnread_config]
  split <;> rfl

theorem askForKey_withUnread (x : Reg) :
    (s.withUnread b bp c).askForKey x = (s.askForKey x).withUnread b bp c := by
  unfold State.askForKey
  rw [answerKey_withUnread]
  rcases s.answerKey with ⟨_ | k, u⟩ <;> rfl

theorem displayClear_withUnread : (s.withUnread b bp c).displayClear = s.displayClear.withUnread b bp c := by
  simp only [State.displayClear, withUnread_config]
  split <;> rfl

theorem displayDraw_withUnread (px py : Byte) (rows : List Byte) (n : Nibble) :
    (s.withUnread b bp c).displayDraw px py rows n =
      ((s.displayDraw px py rows n).1, (s.displayDraw px py rows n).2.withUnread b bp c) := by
  simp only [State.displayDraw, answerCollision_withUnread, withUnread_config]
  split <;> rfl

theorem drawSprite_withUnread (x y : Reg) (n : Nibble) :
    (s.withUnread b bp c).drawSprite x y n = (s.drawSprite x y n).withUnread b bp c := by
  rw [drawSprite_eq, drawSprite_eq, displayDraw_withUnread,
    memReadBytes_congr (s := s) (t := s.withUnread b bp c) rfl rfl]
  rfl

/-- An instruction other than `Fx18` does the same with other values in the unread fields, and keeps them. -/
theorem exec_withUnread {i : Instr} {s t : State} (h : exec i s = .next t) (hi : ∀ x, i ≠ .opFx18 x) :
    exec i (s.withUnread b bp c) = .next (t.withUnread b bp c) := by
  cases i
  case op00E0 => cases h; simp only [exec, exec00E0, displayClear_withUnread]; rfl
  case op00EE =>
    simp only [exec, exec00EE] at h
    split at h
    next hsp =>
      cases h
      simp only [exec, exec00EE, pop_withUnread]
      exact if_pos hsp
    next => cases h
  case op2nnn nnn =>
    simp only [exec, exec2nnn] at h
    split at h
    next hsp =>
      cases h
      simp only [exec, exec2nnn, push_withUnread]
      exact if_pos hsp
    next => cases h
  case op8xy4 | op8xy5 | op8xy6 | op8xy7 | op8xyE =>
    cases h
    exact congrArg (fun u : State => Host.Outcome.next u.advance) (writeResultAndFlag_withUnread s b bp c ..)
  case opCxnn x nn => cases h; rw [exec_opCxnn, drawByte_withUnread]; rfl
  case opDxyn x y n =>
    rw [exec_opDxyn] at h
    cases h
    rw [exec_opDxyn, drawSprite_withUnread, withUnread_config]
    split <;> rfl
  case opEx9E x => cases h; rw [exec_opEx9E, getV_withUnread, keyPressed_withUnread]; rfl
  case opExA1 x => cases h; rw [exec_opExA1, getV_withUnread, keyPressed_withUnread]; rfl
  case opFx0A x =>
    rw [exec_opFx0A] at h
    cases h
    rw [exec_opFx0A, askForKey_withUnread, withUnread_config]
    split <;> rfl
  case opFx18 x => exact absurd rfl (hi x)
  case opFx33 | opFx55 =>
    cases h
    exact congrArg (fun u : State => Host.Outcome.next u.advance) (memWriteBytes_withUnread s b bp c ..)
  case opFx65 x =>
    rw [exec_opFx65] at h ⊢
    obtain rfl := Host.Outcome.next.inj h
    rfl
  all_goals (cases h; rfl)

end Sys2Proof.Machine
end

section
/-! SUPPORT. The invariant of the machine (spec/10_state.md R47), operation by operation and then agent by agent: what
an instruction, an iteration of the Scheduler, an attempt of the Debugger and a host call do to a well-formed state. -/

namespace Sys2Proof.Machine

/-- The conditions of `State.wf` but the last, which is about a waiting cycle. -/
structure State.WfBetweenCycles (s : State) : Prop where
  mem : Memory.wf s.config.glyph s.mem
  sp : s.sp.toNat ≤ 16
  bp : s.bp.Pairwise (· < ·)
  turn : s.turn ≠ .conflict
  tCycle : s.tCycle ≤ s.now
  tTimer : s.tTimer ≤ s.now
  pixels : s.pixelsWf

theorem wf_iff (s : State) : s.wf ↔ s.WfBetweenCycles ∧ s.waitWf := by
  constructor
  · rintro ⟨hm, hsp, hbp, hturn, hc, ht, hp, hw⟩
    exact ⟨⟨hm, hsp, hbp, hturn, hc, ht, hp⟩, hw⟩
  · rintro ⟨⟨hm, hsp, hbp, hturn, hc, ht, hp⟩, hw⟩
    exact ⟨hm, hsp, hbp, hturn, hc, ht, hp, hw⟩

theorem wf_of_not_waiting {s : State} (hs : s.WfBetweenCycles) (hw : s.waiting = false) : s.wf :=
  (wf_iff s).2 ⟨hs, fun h => by simp [hw] at h⟩

/-! ### The operations -/

theorem memWriteBytes_wfBetweenCycles {s : State} (hs : s.WfBetweenCycles) (a : Nat) (bs : List Byte) :
    (s.memWriteBytes a bs).WfBetweenCycles := by
  have hm := memWriteBytes_wf a bs hs.mem
  rw [memWriteBytes_only]
  exact { hs with mem := hm }

theorem pop_wfBetweenCycles {s : State} (hs : s.WfBetweenCycles) : s.pop.2.WfBetweenCycles := by
  rcases pop_cases s with ⟨-, hp⟩ | ⟨h0, hp⟩ <;> rw [hp]
  · exact hs
  · have hle := hs.sp
    have hsp : (s.sp - 1).toNat ≤ 16 := by bv_omega
    exact { hs with sp := hsp }

theorem push_wfBetweenCycles {s : State} (hs : s.WfBetweenCycles) (a : Word) : (s.push a).2.WfBetweenCycles := by
  rcases push_cases s a with ⟨hlt, hp⟩ | ⟨-, hp⟩ <;> rw [hp]
  · have hsp : (s.sp + 1).toNat ≤ 16 := by bv_omega
    exact { hs with sp := hsp }
  · exact hs

theorem displayClear_wfBetweenCycles {s : State} (hs : s.WfBetweenCycles) : s.displayClear.WfBetweenCycles := by
  obtain ⟨hw, hh, -⟩ := hs.pixels
  unfold State.displayClear
  split
  · exact hs
  · exact { hs with }
  · exact { hs with pixels := ⟨hw, hh, .nil, fun _ hp => nomatch hp⟩ }

theorem displayDraw_wfBetweenCycles {s : State} (hs : s.WfBetweenCycles) (px py : Byte) (rows : List Byte)
    (n : Nibble) : (s.displayDraw px py rows n).2.WfBetweenCycles := by
  have hp := displayDraw_pixelsWf hs.pixels px py rows n
  rw [displayDraw_only] at hp ⊢
  exact { hs with pixels := hp }

/-- A poll outside a wait leaves a state in which the same driver is at work and none waits (R225). -/
theorem pollOpen_keeps {s : State} {d : Turn} (hs : s.WfBetweenCycles) (hw : s.waiting = false) (hturn : s.turn = d) :
    s.pollOpen.2.WfBetweenCycles ∧ s.pollOpen.2.waiting = false ∧ s.pollOpen.2.turn = d := by
  rw [pollOpen_only]
  exact ⟨{ hs with }, hw, hturn⟩

/-- A time sample is not behind any clock, since time does not run backwards (R222). -/
theorem sampleNow_wfBetweenCycles {s : State} (hs : s.WfBetweenCycles) : s.sampleNow.WfBetweenCycles := by
  have hn := sampleNow_mono s
  rw [sampleNow_only]
  exact { hs with tCycle := hs.tCycle.trans hn, tTimer := hs.tTimer.trans hn }

/-! ### The instructions -/

theorem exec_wfBetweenCycles {i : Instr} {s t : State} (hs : s.WfBetweenCycles) (h : exec i s = .next t) :
    t.WfBetweenCycles := by
  cases exec_effect h with
  | registers | index | delayTimer | soundTimer | keyAbsent => exact { hs with }
  | store a bs => exact { memWriteBytes_wfBetweenCycles hs a bs with }
  | ret => exact { pop_wfBetweenCycles hs with }
  | call => exact { push_wfBetweenCycles hs s.pc with }
  | random => rw [drawByte_only]; exact { hs with }
  | keyTest key => rw [keyPressed_only]; exact { hs with }
  | clear => exact { displayClear_wfBetweenCycles hs with }
  | draw px py rows n => exact { displayDraw_wfBetweenCycles hs px py rows n with }
  | keyArrives | keyHold => rw [answerKey_only]; exact { hs with }

/-- A driver's cycle keeps the state well-formed: where it ends in a wait, the wait is one of `State.waitWf` (R230). -/
theorem cycle_wf {s t : State} (hs : s.wf) (hturn : s.turn ≠ .host)
    (hdue : s.runState = .running → s.cycleDue = true) (h : cycle s = .next t) : t.wf := by
  obtain ⟨hb, hwait⟩ := (wf_iff s).1 hs
  refine (wf_iff t).2 ⟨exec_wfBetweenCycles hb h, fun ht => ?_⟩
  obtain ⟨hkey, hin, rfl⟩ := exec_hold h ht fun hw => (hwait hw).2.1
  rw [answerKey_only]
  exact ⟨hin, hkey, hturn, hdue⟩

/-! ### The Debugger -/

theorem endDebug_wf {s : State} (hs : s.WfBetweenCycles) (hw : s.waiting = false) (o : DebugOutcome) :
    (s.endDebug o).wf := by
  have hturn : (s.endDebug o).turn ≠ .conflict := by
    unfold State.turn
    cases (s.endDebug o).runState <;> simp
  exact wf_of_not_waiting { hs with turn := hturn } hw

theorem finishAttempt_wf {s : State} (hs : s.WfBetweenCycles) (hw : s.waiting = false) : s.finishAttempt.wf := by
  have hs' : s.timerTick.displayRender.WfBetweenCycles := by
    rw [displayRender_only]
    exact { hs with }
  have hw' : s.timerTick.displayRender.waiting = false := by
    rw [displayRender_only]
    exact hw
  unfold State.finishAttempt
  dsimp only
  split
  · exact wf_of_not_waiting hs' hw'
  · exact endDebug_wf hs' hw' .executed
  · exact wf_of_not_waiting hs' hw'

theorem attemptBody_wf {s t : State} (hs : s.wf) (hturn : s.turn = .debugger) (h : s.attemptBody = .next t) :
    t.wf := by
  obtain ⟨hrun, -⟩ := (turn_debugger_iff s).1 hturn
  unfold State.attemptBody at h
  split at h
  next u hu =>
    have hwf : u.wf := cycle_wf hs (by simp [hturn]) (fun hr => absurd hr hrun) hu
    obtain rfl := Host.Outcome.next.inj h
    split
    next => exact hwf
    next hw => exact finishAttempt_wf ((wf_iff u).1 hwf).1 (by simpa using hw)
  next => cases h
  next => cases h

theorem debuggerStep_wf {s t : State} (hs : s.wf) (hturn : s.turn = .debugger) (h : debuggerStep s = .next t) :
    t.wf := by
  unfold debuggerStep at h
  split at h
  next => exact attemptBody_wf hs hturn h
  next hw =>
    obtain ⟨hb, hw', hturn'⟩ := pollOpen_keeps ((wf_iff s).1 hs).1 (by simpa using hw) hturn
    split at h
    next u hu =>
      rw [hu] at hb hw' hturn'
      split at h
      · obtain rfl := Host.Outcome.next.inj h
        exact endDebug_wf hb hw' _
      · exact attemptBody_wf (wf_of_not_waiting hb hw') hturn' h
    next u hu =>
      rw [hu] at hb hw'
      obtain rfl := Host.Outcome.next.inj h
      exact endDebug_wf hb hw' _

/-! ### The Scheduler -/

theorem finishIteration_wf {s : State} (hs : s.WfBetweenCycles) (hw : s.waiting = false) :
    s.finishIteration.wf := by
  rw [finishIteration_eq]
  split
  · exact wf_of_not_waiting { hs with tTimer := le_rfl } hw
  · exact wf_of_not_waiting { hs with } hw

theorem afterSchedulerCycle_wf {s : State} (hs : s.wf) : s.afterSchedulerCycle.wf := by
  unfold State.afterSchedulerCycle
  split
  next => exact hs
  next hw => exact finishIteration_wf { ((wf_iff s).1 hs).1 with tCycle := le_rfl } (by simpa using hw)

theorem iterationBody_wf {s t : State} (hs : s.wf) (hturn : s.turn = .scheduler) (h : s.iterationBody = .next t) :
    t.wf := by
  unfold State.iterationBody at h
  split at h
  next hdue =>
    split at h
    next u hu =>
      obtain rfl := Host.Outcome.next.inj h
      exact afterSchedulerCycle_wf (cycle_wf hs (by simp [hturn]) (fun _ => hdue) hu)
    next => cases h
    next => cases h
  next hdue =>
    obtain ⟨hb, hwait⟩ := (wf_iff s).1 hs
    obtain ⟨hrun, -⟩ := (turn_scheduler_iff s).1 hturn
    have hw : s.waiting = false := by
      by_contra hw
      obtain ⟨-, -, -, hdue'⟩ := hwait (by simpa using hw)
      exact hdue (hdue' hrun)
    obtain rfl := Host.Outcome.next.inj h
    exact finishIteration_wf hb hw

theorem stopRun_wf {s : State} (hs : s.WfBetweenCycles) (hw : s.waiting = false) : s.stopRun.wf := by
  have hturn : s.stopRun.turn ≠ .conflict := by
    unfold State.turn
    cases s.stopRun.control <;> simp
  exact wf_of_not_waiting { hs with turn := hturn } hw

theorem schedulerStep_wf {s t : State} (hs : s.wf) (hturn : s.turn = .scheduler) (h : schedulerStep s = .next t) :
    t.wf := by
  unfold schedulerStep at h
  split at h
  next => exact iterationBody_wf hs hturn h
  next hw =>
    obtain ⟨hb, hw', hturn'⟩ := pollOpen_keeps ((wf_iff s).1 hs).1 (by simpa using hw) hturn
    split at h
    next u hu =>
      rw [hu] at hb hw' hturn'
      have hsample : u.sampleNow.waiting = false ∧ u.sampleNow.turn = .scheduler := by
        rw [sampleNow_only]
        exact ⟨hw', hturn'⟩
      exact iterationBody_wf (wf_of_not_waiting (sampleNow_wfBetweenCycles hb) hsample.1) hsample.2 h
    next u hu =>
      rw [hu] at hb hw'
      obtain rfl := Host.Outcome.next.inj h
      exact stopRun_wf hb hw'

/-! ### The host's calls -/

theorem writeByte_wfBetweenCycles {s : State} (hs : s.WfBetweenCycles) (a : Nat) (b : Byte) :
    (s.writeByte a b).2.WfBetweenCycles :=
  memWriteBytes_wfBetweenCycles hs a [b]

theorem writeWord_wfBetweenCycles {s : State} (hs : s.WfBetweenCycles) (a : Nat) (w : Word) :
    (s.writeWord a w).2.WfBetweenCycles := by
  rcases writeWord_cases s a w with ⟨-, h⟩ | ⟨-, h⟩ <;> rw [h]
  · exact memWriteBytes_wfBetweenCycles hs a _
  · exact hs

theorem loadProgram_wfBetweenCycles {s : State} (hs : s.WfBetweenCycles) (bytes : List Byte) :
    (s.loadProgram bytes).2.WfBetweenCycles := by
  rcases loadProgram_cases s bytes with ⟨-, h⟩ | ⟨-, h⟩ <;> rw [h]
  · exact memWriteBytes_wfBetweenCycles hs _ bytes
  · exact hs

theorem memoryReset_wfBetweenCycles {s : State} (hs : s.WfBetweenCycles) : s.memoryReset.WfBetweenCycles :=
  { hs with mem := nil_wf _ }

theorem registerReset_wfBetweenCycles {s : State} (hs : s.WfBetweenCycles) : s.registerReset.WfBetweenCycles :=
  { hs with sp := by simp }

theorem stackReset_wfBetweenCycles {s : State} (hs : s.WfBetweenCycles) : s.stackReset.WfBetweenCycles :=
  { hs with sp := by simp }

/-- Both clocks start at the sample of the entry, and no Debugger call is in progress (R223, R233). -/
theorem enterRun_wfBetweenCycles {s : State} (hs : s.WfBetweenCycles) (hturn : s.turn = .host) :
    s.enterRun.WfBetweenCycles := by
  obtain ⟨-, hcontrol⟩ := (turn_host_iff s).1 hturn
  have hturn' : s.enterRun.turn = .scheduler := by
    rw [turn_scheduler_iff]
    unfold State.enterRun
    rw [sampleNow_only]
    exact ⟨rfl, hcontrol⟩
  exact { sampleNow_wfBetweenCycles hs with turn := by simp [hturn'], tCycle := le_rfl, tTimer := le_rfl }

/-- A Debugger call begins where no Scheduler runs (R233, R241). -/
theorem setControl_wfBetweenCycles {s : State} (hs : s.WfBetweenCycles) (hturn : s.turn = .host)
    (c : DebugControl) : ({ s with control := c } : State).WfBetweenCycles := by
  obtain ⟨hrun, -⟩ := (turn_host_iff s).1 hturn
  have hturn' : ({ s with control := c } : State).turn ≠ .conflict := by
    revert hrun
    unfold State.turn
    cases s.runState <;> cases c <;> simp
  exact { hs with turn := hturn' }

theorem hostCall_wfBetweenCycles {c : HostCall} {s t : State} (hs : s.WfBetweenCycles) (hturn : s.turn = .host)
    (h : hostCall c s = .next t) : t.WfBetweenCycles := by
  cases c
  case interpreterReset =>
    cases h
    exact { stackReset_wfBetweenCycles (registerReset_wfBetweenCycles (memoryReset_wfBetweenCycles hs)) with }
  case memoryReset => cases h; exact { memoryReset_wfBetweenCycles hs with }
  case registerReset => cases h; exact { registerReset_wfBetweenCycles hs with }
  case stackReset => cases h; exact { stackReset_wfBetweenCycles hs with }
  case loadProgram bytes => cases h; exact { loadProgram_wfBetweenCycles hs bytes with }
  case loadGlyphTable g => cases h; exact { memWriteBytes_wfBetweenCycles hs _ _ with }
  case writeByte a b => cases h; exact { writeByte_wfBetweenCycles hs a b with }
  case writeWord a w => cases h; exact { writeWord_wfBetweenCycles hs a w with }
  case push a =>
    rw [hostCall, hostPush_eq, if_pos hs.sp] at h
    cases h
    exact { push_wfBetweenCycles hs a with }
  case pop =>
    rw [hostCall, hostPop_eq, if_pos hs.sp] at h
    cases h
    exact { pop_wfBetweenCycles hs with }
  case runScheduler => cases h; exact enterRun_wfBetweenCycles hs hturn
  case debuggerStep => cases h; exact setControl_wfBetweenCycles hs hturn .stepping
  case continueExecution => cases h; exact setControl_wfBetweenCycles hs hturn .continuing
  case constructDebugger => cases h; exact { setControl_wfBetweenCycles hs hturn .halted with bp := .nil }
  case addBreakpoint a => cases h; exact { hs with bp := insertBreakpoint_sorted a hs.bp }
  case removeBreakpoint a => cases h; exact { hs with bp := eraseBreakpoint_sorted a hs.bp }
  case clearBreakpoints => cases h; exact { hs with bp := .nil }
  case getPixel col row => cases h; rw [displayPixel_only]; exact { hs with }
  all_goals (cases h; exact { hs with })

theorem hostStep_wf {s t : State} (hs : s.wf) (hturn : s.turn = .host) (h : hostStep s = .next t) : t.wf := by
  unfold hostStep at h
  split at h
  next => cases h; exact hs
  next c rest hq =>
    obtain ⟨hb, hwait⟩ := (wf_iff s).1 hs
    have hw : s.waiting = false := by
      by_contra hw
      obtain ⟨-, -, hne, -⟩ := hwait (by simpa using hw)
      exact hne hturn
    obtain ⟨-, -, hwt⟩ := hostCall_frame h
    have hb' : ({ s with hostCalls := rest } : State).WfBetweenCycles := { hb with }
    exact wf_of_not_waiting (hostCall_wfBetweenCycles hb' hturn h) (hwt.trans hw)

/-- A constructed interpreter with a display of positive size is well-formed (R45, R47). -/
theorem construct_wf {c : Config} (hw : 0 < c.displayW) (hh : 0 < c.displayH) : (State.construct c).wf := by
  have hb : (State.construct c).WfBetweenCycles := {
    mem := nil_wf _
    sp := Nat.zero_le _
    bp := .nil
    turn := by simp [State.turn, State.construct]
    tCycle := le_rfl
    tTimer := le_rfl
    pixels := ⟨hw, hh, .nil, fun _ hp => nomatch hp⟩ }
  exact wf_of_not_waiting hb rfl

end Sys2Proof.Machine
end

section
/-! PROOFS. The statements on the state and on who may change it (spec/10_state.md), settled from the lemmas above. -/

namespace Sys2Proof.Machine

/-! ### Well-formed states -/

/-- Settles O58: one preservation lemma for each of the three agents. -/
theorem everyStepKeepsTheStateWellFormed : Obligations.EveryStepKeepsTheStateWellFormed := by
  intro s t hs h
  cases hturn : s.turn with
  | scheduler => exact schedulerStep_wf hs hturn (step_of_scheduler hturn ▸ h)
  | debugger => exact debuggerStep_wf hs hturn (step_of_debugger hturn ▸ h)
  | host => exact hostStep_wf hs hturn (step_of_host hturn ▸ h)
  | conflict => exact absurd hturn ((wf_iff s).1 hs).1.turn

/-- Settles O57: reset is a construction with a display of 64 by 32. -/
theorem resetIsWellFormed : Obligations.ResetIsWellFormed :=
  construct_wf (by decide) (by decide)

/-! ### Rules over all instructions -/

theorem getV_setV_ne {s : State} {x k : Reg} (h : (k == x) = false) (b : Byte) : (s.setV x b).getV k = s.getV k := by
  rw [getV_setV, if_neg (by simpa using h)]

theorem getV_writeResultAndFlag_ne {s : State} {x k : Reg} (h : (k == x || k == regVF) = false) (r : Byte)
    (f : Bool) : (s.writeResultAndFlag x r f).getV k = s.getV k := by
  simp only [Bool.or_eq_false_iff, beq_eq_false_iff_ne] at h
  rw [getV_writeResultAndFlag, if_neg h.2, if_neg h.1]

/-- Settles O34, instruction by instruction: the writes of registers one by one, and the rest by the frame of the
operation the instruction is made of. -/
theorem onlyNamedRegistersAreWritten : Obligations.OnlyNamedRegistersAreWritten := by
  intro i s t k h hk
  cases i
  case op00E0 => cases h; rw [getV_advance, displayClear_only]; rfl
  case op00EE =>
    simp only [exec, exec00EE] at h
    split at h
    · cases h; exact getV_congr (by rw [pop_only s]; rfl) k
    · cases h
  case op2nnn nnn =>
    simp only [exec, exec2nnn] at h
    split at h
    · cases h; rw [getV_jump, push_only]; rfl
    · cases h
  case op6xnn | op7xnn | op8xy0 | op8xy1 | op8xy2 | op8xy3 | opFx07 => cases h; exact getV_setV_ne hk _
  case op8xy4 | op8xy5 | op8xy6 | op8xy7 | op8xyE => cases h; exact getV_writeResultAndFlag_ne hk _ _
  case opCxnn x nn =>
    rw [exec_opCxnn] at h
    cases h
    rw [getV_advance, getV_setV_ne hk, drawByte_only]
    rfl
  case opDxyn x y n =>
    rw [exec_opDxyn, drawSprite_eq] at h
    cases h
    split
    next hd =>
      rw [getV_advance, getV_setV_ne (by simpa [mayWriteV, hd] using hk), displayDraw_only]
      rfl
    next => rfl
  case opEx9E x => rw [exec_opEx9E] at h; cases h; rw [getV_skipIf, keyPressed_only]; rfl
  case opExA1 x => rw [exec_opExA1] at h; cases h; rw [getV_skipIf, keyPressed_only]; rfl
  case opFx0A x =>
    rw [exec_opFx0A] at h
    cases h
    split
    · rcases askForKey_cases s x with ⟨j, -, hj⟩ | ⟨-, hj⟩ <;> rw [hj, answerKey_only]
      · exact getV_setV_ne hk _
      · rfl
    · exact getV_setV_ne hk _
  case opFx33 | opFx55 => cases h; rw [getV_advance, memWriteBytes_only]; rfl
  case opFx65 x =>
    rw [exec_opFx65] at h
    obtain rfl := Host.Outcome.next.inj h
    rw [getV_advance, getV_loadRegs, if_neg (by simpa [mayWriteV] using hk)]
  all_goals (cases h; rfl)

/-- Settles O36, effect by effect. -/
theorem specialRegistersHaveOnlyTheirWriters : Obligations.SpecialRegistersHaveOnlyTheirWriters := by
  intro i s t h
  cases exec_effect h with
  | registers | keyAbsent => exact ⟨.inl rfl, .inl rfl, .inl rfl, .inl rfl, .inl rfl⟩
  | index _ _ hi => exact ⟨.inl rfl, .inl rfl, .inr hi, .inl rfl, .inl rfl⟩
  | delayTimer x _ hi => exact ⟨.inl rfl, .inl rfl, .inl rfl, .inr ⟨x, hi⟩, .inl rfl⟩
  | soundTimer x _ hi => exact ⟨.inl rfl, .inl rfl, .inl rfl, .inl rfl, .inr ⟨x, hi⟩⟩
  | store => rw [memWriteBytes_only]; exact ⟨.inl rfl, .inl rfl, .inl rfl, .inl rfl, .inl rfl⟩
  | ret _ hi => rw [pop_only]; exact ⟨.inl rfl, .inr (.inl hi), .inl rfl, .inl rfl, .inl rfl⟩
  | call nnn _ hi =>
    rw [push_only]
    exact ⟨.inr ⟨nnn, hi⟩, .inr (.inr ⟨nnn, hi⟩), .inl rfl, .inl rfl, .inl rfl⟩
  | random => rw [drawByte_only]; exact ⟨.inl rfl, .inl rfl, .inl rfl, .inl rfl, .inl rfl⟩
  | keyTest => rw [keyPressed_only]; exact ⟨.inl rfl, .inl rfl, .inl rfl, .inl rfl, .inl rfl⟩
  | clear => rw [displayClear_only]; exact ⟨.inl rfl, .inl rfl, .inl rfl, .inl rfl, .inl rfl⟩
  | draw => rw [displayDraw_only]; exact ⟨.inl rfl, .inl rfl, .inl rfl, .inl rfl, .inl rfl⟩
  | keyArrives | keyHold => rw [answerKey_only]; exact ⟨.inl rfl, .inl rfl, .inl rfl, .inl rfl, .inl rfl⟩

/-- `Fx15` alone writes DT and `Fx18` alone ST, each the value of its register (R28, R191, R192). -/
theorem exec_timers {i : Instr} {s t : State} (h : exec i s = .next t) :
    (t.dt = s.dt ∨ ∃ x, i = .opFx15 x ∧ t.dt = s.getV x) ∧
      (t.st = s.st ∨ ∃ x, i = .opFx18 x ∧ t.st = s.getV x) := by
  obtain ⟨-, -, -, hdt, hst⟩ := specialRegistersHaveOnlyTheirWriters i s t h
  refine ⟨hdt.imp_right ?_, hst.imp_right ?_⟩
  · rintro ⟨x, rfl⟩
    cases h
    exact ⟨x, rfl, rfl⟩
  · rintro ⟨x, rfl⟩
    cases h
    exact ⟨x, rfl, rfl⟩

/-- Settles O37: the frame of `exec`, the two timer setters, and the calls an instruction makes. -/
theorem instructionsLeaveTheControlPlaneAlone : Obligations.InstructionsLeaveTheControlPlaneAlone := by
  intro i s t h
  obtain ⟨hdt, hst⟩ := exec_timers h
  have hcalls := exec_atMostOneCall h
  have ht := exec_only h
  rw [ht]
  rw [ht] at hdt hst hcalls
  exact ⟨rfl, rfl, rfl, rfl, rfl, rfl, rfl, rfl, rfl, rfl, hdt, hst, hcalls⟩

/-- Settles O39: ST is one of the unread fields; the others keep the values they had. -/
theorem noInstructionReadsTheSoundTimer : Obligations.NoInstructionReadsTheSoundTimer := by
  intro i s t b h hi
  have hrun := exec_withUnread b s.bp s.control h hi
  have ht : t.withUnread b s.bp s.control = { t with st := b } := by
    rw [exec_only h]
    rfl
  rwa [ht] at hrun

/-! ### Component operations, resets and host calls -/

/-- Settles O49: the list operations as set operations, and each call as one step of the host. -/
theorem breakpointOperationsAreSetOperations : Obligations.BreakpointOperationsAreSetOperations := by
  refine ⟨fun bp a b => ⟨mem_insertBreakpoint a b bp, mem_eraseBreakpoint a b bp, fun hs =>
    ⟨insertBreakpoint_sorted a hs, eraseBreakpoint_sorted a hs, insertBreakpoint_of_mem hs,
      eraseBreakpoint_of_not_mem⟩⟩, fun s a rest hturn => ?_⟩
  have hstep {c : HostCall} (hc : s.hostCalls = c :: rest) : step s = hostCall c { s with hostCalls := rest } :=
    step_hostCall hturn hc
  refine ⟨fun hc => hstep hc, fun hc => hstep hc, fun hc => hstep hc, fun hc => ?_⟩
  rw [hstep hc, hostCall, List.contains_eq_mem]
  rfl

/-- Settles O54, from what a push and a pop can do. -/
theorem popReturnsTheLastPush : Obligations.PopReturnsTheLastPush := by
  intro s a
  refine ⟨fun hlt => ?_, fun hfull => ?_, fun h0 => ?_⟩
  · obtain ⟨hok, hsp, hslot⟩ := push_of_lt hlt a
    have hback : s.sp + 1 - 1 = s.sp := by bv_omega
    refine ⟨hok, by bv_omega, ?_, fun k hk => by rw [hslot, if_neg hk]⟩
    rcases pop_cases (s.push a).2 with ⟨h0, -⟩ | ⟨-, hp⟩
    · bv_omega
    · have htop : (s.sp + 1).toNat - 1 = s.sp.toNat := by bv_omega
      rw [hp, hsp, hback, htop, hslot, if_pos rfl]
  · rcases push_cases s a with ⟨_, -⟩ | ⟨-, hp⟩
    · omega
    · exact hp
  · rcases pop_cases s with ⟨-, hp⟩ | ⟨hne, -⟩
    · exact hp
    · exact absurd h0 hne

/-- Settles O55: memory with nothing listed holds the reset content. -/
theorem constructionLeavesTheResetState : Obligations.ConstructionLeavesTheResetState := by
  intro c
  refine ⟨getV_of_v_zero rfl, rfl, rfl, rfl, rfl, rfl, slot_of_stack_zero rfl, readByte_glyph_of_mem_nil rfl,
    fun a => readByte_zero_of_mem_nil rfl, rfl, rfl, rfl, fun s hc => ⟨?_, rfl⟩⟩
  exact ⟨rfl, rfl, rfl, rfl, rfl, rfl, rfl, rfl, hc⟩

/-- Settles O56: memory with nothing listed holds the reset content, and the zero-filled registers and slots read 0. -/
theorem componentResetsRestoreTheirComponents : Obligations.ComponentResetsRestoreTheirComponents := by
  intro s
  have hmem : s.memoryReset.mem = [] := rfl
  exact ⟨⟨rfl, readByte_glyph_of_mem_nil hmem, fun a => readByte_zero_of_mem_nil hmem⟩,
    ⟨getV_of_v_zero rfl, rfl⟩, slot_of_stack_zero rfl, rfl⟩

/-- Settles O60: the host's step is the call on the state without it in the queue. -/
theorem theInterpreterStandsStillBetweenCalls : Obligations.TheInterpreterStandsStillBetweenCalls := by
  intro s hturn
  refine ⟨fun hq => by rw [step_of_host hturn, hostStep_idle hq], fun rest => ?_⟩
  have hstep {c : HostCall} (hc : s.hostCalls = c :: rest) : step s = hostCall c { s with hostCalls := rest } :=
    step_hostCall hturn hc
  refine ⟨fun c t hc ht => ?_, fun hc => hstep hc, fun hc => hstep hc, fun hc => hstep hc, fun hc => hstep hc,
    fun bytes hc => ?loadProgram, fun g hc => ?loadGlyphTable, fun a hc => ?readByte, fun a hc => ?readWord,
    fun a b hc => ?writeByte, fun a w hc => ?writeWord, fun hc => ?rawView, fun a hc => ?push, fun hc => ?pop,
    fun hc => hstep hc, fun hc => hstep hc, fun hc => hstep hc, fun hc => hstep hc, fun hc => ?isAtBreakpoint,
    fun k p hc => hstep hc, fun col row hc => ?getPixel⟩
  · rw [hstep hc] at ht
    obtain ⟨hq, hcalls, hwaiting⟩ := hostCall_frame ht
    exact ⟨hq, hcalls, hwaiting, hostCall_sameInterpreter (s := { s with hostCalls := rest }) ht⟩
  case loadProgram => rw [hstep hc, hostCall, loadProgram_hostCalls]; rfl
  case loadGlyphTable =>
    refine ⟨?_, loadGlyphTable_only s g, fun hwf a => readByte_loadGlyphTable g hwf a⟩
    rw [hstep hc, hostCall, loadGlyphTable_hostCalls]
    rfl
  case readByte => rw [hstep hc, hostCall, readByte_hostCalls]; cases s.readByte a <;> rfl
  case readWord => rw [hstep hc, hostCall, readWord_hostCalls]; cases s.readWord a <;> rfl
  case writeByte => rw [hstep hc, hostCall, writeByte_hostCalls]; rfl
  case writeWord => rw [hstep hc, hostCall, writeWord_hostCalls]; rfl
  case rawView =>
    refine ⟨s.memReadBytes 0 memSize, ?_, memReadBytes_length s 0 memSize, rawView_getElem? s⟩
    rw [hstep hc, hostCall, State.rawView, memReadBytes_congr (s := s) (t := { s with hostCalls := rest }) rfl rfl]
    rfl
  case push =>
    refine ⟨fun hsp => ?_, fun hsp => ?_⟩
    · rw [hstep hc, hostCall, hostPush_eq, if_pos hsp, push_hostCalls]
      rfl
    · rw [hstep hc, hostCall, hostPush_eq, if_neg (by simpa using hsp)]
  case pop =>
    refine ⟨fun hsp => ?_, fun hsp => ?_⟩
    · rw [hstep hc, hostCall, hostPop_eq, if_pos hsp, pop_hostCalls]
      rfl
    · rw [hstep hc, hostCall, hostPop_eq, if_neg (by simpa using hsp)]
  case isAtBreakpoint => rw [hstep hc, hostCall, State.atBreakpoint, List.contains_eq_mem]; rfl
  case getPixel =>
    have hpix := displayPixel_hostCalls s rest col row
    refine ⟨fun habs => ?_, fun href hcol hrow => ?_, fun hne => ?_⟩
    · rw [hstep hc, hostCall, hpix, displayPixel_absent habs]; rfl
    · rw [hstep hc, hostCall, hpix, displayPixel_reference href hcol hrow]; rfl
    · obtain ⟨b, d, hb⟩ := displayPixel_attached hne col row
      refine ⟨b, d, ?_⟩
      rw [hstep hc, hostCall, hpix, hb]
      rfl

end Sys2Proof.Machine
end

section
/-! SUPPORT. A 16-bit word in memory (spec/20_memory.md R55, R56, R64, spec/40_cycle.md R101), the bytes an instruction
stores (R66), and a word placed where the next attempt of the Debugger fetches (spec/48_debugger.md R248). -/

namespace Sys2Proof.Machine

/-! ### Words in memory -/

/-- A word is read where both of its bytes are in memory, and is then the two bytes as an instruction reads them. -/
theorem readWord_eq (s : State) (a : Nat) :
    s.readWord a = if a + 1 < 4096 then some (s.memReadWord a) else none := by
  simp only [State.readWord, State.memReadWord, memRead_eq, readByte_eq]
  by_cases h : a + 1 < 4096
  · simp [h, show a < 4096 by omega]
  · by_cases ha : a < 4096 <;> simp [h, ha]

/-- A word that has been stored inside memory reads back (R64). -/
theorem memReadWord_memWriteBytes {s : State} {a : Nat} (w : Word) (ha : a + 1 < 4096)
    (h : Memory.wf s.config.glyph s.mem) : (s.memWriteBytes a (bytesOfWord w)).memReadWord a = w := by
  have hhi : (s.memWriteBytes a (bytesOfWord w)).memRead a = hiByte w := by
    rw [State.memRead, readByte_memWriteBytes a _ a h, if_pos ⟨le_rfl, by omega, by simp [bytesOfWord]⟩]
    simp [bytesOfWord]
  have hlo : (s.memWriteBytes a (bytesOfWord w)).memRead (a + 1) = loByte w := by
    rw [State.memRead, readByte_memWriteBytes a _ (a + 1) h, if_pos ⟨by omega, ha, by simp [bytesOfWord]⟩]
    simp [bytesOfWord]
  rw [State.memReadWord, hhi, hlo, wordOfBytes_hiByte_loByte]

/-! ### The bytes an instruction stores -/

/-- The bytes an instruction stores from I on: the decimal digits for `Fx33`, the registers for `Fx55`. -/
def storedBytes (i : Instr) (s : State) : List Byte :=
  match i with
  | .opFx33 x => bcdDigits (s.getV x)
  | .opFx55 x => s.regsUpTo x
  | _ => []

/-- The addresses of R66 are those of the stored bytes. -/
theorem storesTo_iff (i : Instr) (s : State) (a : Nat) :
    storesTo i s a = true ↔ s.baseAddr ≤ a ∧ a - s.baseAddr < (storedBytes i s).length := by
  cases i
  case opFx33 x =>
    have hlen : (bcdDigits (s.getV x)).length = 3 := rfl
    simp only [storesTo, storedBytes, hlen, decide_eq_true_iff]
    omega
  case opFx55 x => simp only [storesTo, storedBytes, regsUpTo_length, decide_eq_true_iff]; omega
  all_goals simp [storesTo, storedBytes]

/-- What an instruction does to memory: it stores its bytes from I on, and nothing else. -/
theorem exec_mem {i : Instr} {s t : State} (h : exec i s = .next t) :
    t.mem = (s.memWriteBytes s.baseAddr (storedBytes i s)).mem := by
  cases i
  case op00E0 => cases h; rw [advance_mem, displayClear_only]; rfl
  case op00EE =>
    simp only [exec, exec00EE] at h
    split at h
    · cases h; rw [returnTo_mem, pop_only]; rfl
    · cases h
  case op2nnn nnn =>
    simp only [exec, exec2nnn] at h
    split at h
    · cases h; rw [jump_mem, push_only]; rfl
    · cases h
  case op8xy4 | op8xy5 | op8xy6 | op8xy7 | op8xyE => cases h; rw [advance_mem, writeResultAndFlag_only]; rfl
  case opCxnn x nn => rw [exec_opCxnn] at h; cases h; rw [advance_mem, setV_mem, drawByte_only]; rfl
  case opDxyn x y n =>
    rw [exec_opDxyn, drawSprite_eq] at h
    cases h
    split
    · rw [advance_mem, setV_mem, displayDraw_only]; rfl
    · rfl
  case opEx9E x => rw [exec_opEx9E] at h; cases h; rw [skipIf_mem, keyPressed_only]; rfl
  case opExA1 x => rw [exec_opExA1] at h; cases h; rw [skipIf_mem, keyPressed_only]; rfl
  case opFx0A x =>
    rw [exec_opFx0A] at h
    cases h
    split
    · rcases askForKey_cases s x with ⟨k, -, hk⟩ | ⟨-, hk⟩ <;> rw [hk, answerKey_only] <;> rfl
    · rfl
  all_goals (cases h; rfl)

theorem exec_config {i : Instr} {s t : State} (h : exec i s = .next t) : t.config = s.config := by
  rw [exec_only h]

/-- An instruction is refused only where SP is ill-formed (R27, R47). -/
theorem exec_next_of_sp_le (i : Instr) {s : State} (h : s.sp.toNat ≤ 16) : ∃ t, exec i s = .next t := by
  have hok : s.stackOk = true := (stackOk_iff s).2 h
  cases i
  case op00EE => exact ⟨_, if_pos hok⟩
  case op2nnn nnn => exact ⟨_, if_pos hok⟩
  all_goals exact ⟨_, rfl⟩

/-! ### A word placed where the next attempt fetches -/

theorem tableWord_toNat (op : Word) : tableWord 16 op.toNat = op := by
  rw [tableWord, Nat.mod_eq_of_lt op.isLt, BitVec.ofNat_toNat, BitVec.setWidth_eq]

theorem decodeTableWord_toNat (op : Word) : decodeTableWord 16 op.toNat = some (decode op) := by
  simp [decodeTableWord, tableWord_toNat, bytesOfWord, decodeBytes]

theorem fetchablePc_only (s : State) : s.fetchablePc = { s with pc := s.fetchablePc.pc } := by
  unfold State.fetchablePc
  split <;> rfl

/-- Both bytes of a word at this PC are in memory. -/
theorem fetchablePc_lt (s : State) : s.fetchablePc.pc.toNat + 1 < 4096 := by
  unfold State.fetchablePc
  split
  next h => exact h
  next =>
    have hbase : programBase.toNat + 1 < 4096 := by decide
    exact hbase

theorem withFetchWord_eq (s : State) (op : Word) :
    s.withFetchWord 16 op.toNat =
      s.fetchablePc.beginAttempt.memWriteBytes s.fetchablePc.pc.toNat (bytesOfWord op) := by
  rw [State.withFetchWord, State.placeFetchWord, tableWord_toNat]
  rfl

/-- What placing a word does to a state: `beginAttempt` at a PC that can be fetched from, and stores. -/
theorem withFetchWord_only (s : State) (op : Word) :
    s.withFetchWord 16 op.toNat =
      { ({ s with pc := s.fetchablePc.pc } : State).beginAttempt with mem := (s.withFetchWord 16 op.toNat).mem } := by
  rw [withFetchWord_eq, memWriteBytes_only, ← fetchablePc_only]

/-- The placed word is the one fetched. -/
theorem fetch_withFetchWord {s : State} (op : Word) (h : Memory.wf s.config.glyph s.mem) :
    (s.withFetchWord 16 op.toNat).fetch = op := by
  have hwf : Memory.wf s.fetchablePc.beginAttempt.config.glyph s.fetchablePc.beginAttempt.mem := by
    rw [fetchablePc_only]
    exact h
  have hpc : (s.withFetchWord 16 op.toNat).pc = s.fetchablePc.pc := by rw [withFetchWord_only]; rfl
  rw [State.fetch, hpc, withFetchWord_eq]
  exact memReadWord_memWriteBytes op (fetchablePc_lt s) hwf

/-- The state in which the placed word is executed: the settled poll has been answered "open". -/
def State.afterPlacedPoll (s : State) (op : Word) : State :=
  { s.withFetchWord 16 op.toNat with
    answers := s.answers
    calls := if s.config.hasInput then .pollAndContinue true :: s.calls else s.calls }

theorem pollOpen_withFetchWord (s : State) (op : Word) :
    (s.withFetchWord 16 op.toNat).pollOpen = (true, s.afterPlacedPoll op) := by
  have hsettled : s.withFetchWord 16 op.toNat =
      ({ s.withFetchWord 16 op.toNat with answers := s.answers } : State).settleOpenPoll := by
    rw [withFetchWord_only]
    rfl
  have hpoll := pollOpen_settleOpenPoll { s.withFetchWord 16 op.toNat with answers := s.answers }
  rw [← hsettled] at hpoll
  rw [hpoll, State.afterPlacedPoll, withFetchWord_only]
  rfl

/-- Nothing stops the attempt: no cycle waits, the poll is open and no breakpoint stands at PC. -/
theorem attemptFrom_withFetchWord (s : State) (op : Word) :
    AttemptFrom (s.withFetchWord 16 op.toNat) (s.afterPlacedPoll op) := by
  refine .inl ⟨by rw [withFetchWord_only]; rfl, pollOpen_withFetchWord s op, ?_⟩
  rw [State.afterPlacedPoll, withFetchWord_only]
  exact fun hmem => ((mem_eraseBreakpoint _ _ s.bp).1 hmem).2 rfl

theorem turn_withFetchWord (s : State) (op : Word) : (s.withFetchWord 16 op.toNat).turn = .debugger := by
  rw [turn_debugger_iff, withFetchWord_only]
  refine ⟨?_, nofun⟩
  change (if s.runState = .running then RunState.stopped else s.runState) ≠ .running
  split
  · nofun
  next h => exact h

end Sys2Proof.Machine
end

section
/-! PROOFS. The statements on memory (spec/20_memory.md), settled from the lemmas above. -/

namespace Sys2Proof.Machine

/-- Settles O8: the placed word is the one fetched, and no instruction is refused where SP is in its range. -/
theorem placedWordIsWhatTheNextStepRuns : Obligations.PlacedWordIsWhatTheNextStepRuns := by
  intro s op hs
  obtain ⟨hb, -⟩ := (wf_iff s).1 hs
  have hsp : (s.afterPlacedPoll op).sp.toNat ≤ 16 := by
    rw [State.afterPlacedPoll, withFetchWord_only]
    exact hb.sp
  obtain ⟨t, ht⟩ := exec_next_of_sp_le (decode op) hsp
  have hattempt := attemptFrom_withFetchWord s op
  have hcycle : cycle (s.afterPlacedPoll op) = .next t := by
    have hfetch : (s.afterPlacedPoll op).fetch = op := fetch_withFetchWord op hb.mem
    rw [cycle, State.fetchInstr, hfetch, ht]
  refine ⟨decodeTableWord_toNat op, s.afterPlacedPoll op, t, hattempt, rfl, ht, ?_⟩
  rw [step_of_debugger (turn_withFetchWord s op), debuggerStep_of_attempt hattempt, attemptBody_next hcycle]

/-- Settles O35: an instruction stores its bytes from I on, and a store leaves every other byte as it was. -/
theorem onlyStoresWriteMemory : Obligations.OnlyStoresWriteMemory := by
  intro i s t a hwf h ha
  have hout : ¬(s.baseAddr ≤ a ∧ a - s.baseAddr < (storedBytes i s).length) := by
    rw [← storesTo_iff, ha]
    exact Bool.false_ne_true
  calc t.readByte a
      = (s.memWriteBytes s.baseAddr (storedBytes i s)).readByte a :=
        readByte_congr (exec_mem h) (by rw [exec_config h, memWriteBytes_only]) a
    _ = s.readByte a := by
        rw [readByte_memWriteBytes _ _ _ hwf, if_neg fun ⟨hlo, _, hhi⟩ => hout ⟨hlo, hhi⟩]

/-- Settles O52: a word read is the two bytes, a word written is the two stores. -/
theorem wordAccessIsBigEndianAllOrNothing : Obligations.WordAccessIsBigEndianAllOrNothing := by
  intro s a w
  refine ⟨writeWord_only s a w, fun hout => ?_, fun hin => ?_, fun hin hwf => ?_⟩
  · rcases writeWord_cases s a w with ⟨hin, -⟩ | ⟨-, hw⟩
    · omega
    · exact ⟨by rw [readWord_eq, if_neg (by omega)], hw⟩
  · rcases writeWord_cases s a w with ⟨-, hw⟩ | ⟨hout, -⟩
    · rw [readWord_eq, if_pos hin, hw, Option.map_some, State.memReadWord, wordOfBytes_toNat]
      exact ⟨rfl, rfl⟩
    · omega
  · rcases writeWord_cases s a w with ⟨-, hw⟩ | ⟨hout, -⟩
    · rw [hw]
      refine ⟨?_, fun b hb hb' => ?_⟩
      · rw [readWord_eq, if_pos hin]
        exact congrArg some (memReadWord_memWriteBytes w hin hwf)
      · rw [readByte_memWriteBytes _ _ _ hwf, if_neg]
        simp only [List.length_cons, List.length_nil]
        omega
    · omega

/-- Settles O53: the image is one sequence of stores from 0x200, all of them inside memory. -/
theorem loadProgramPlacesTheImage : Obligations.LoadProgramPlacesTheImage := by
  intro s bytes hwf
  rcases loadProgram_cases s bytes with ⟨hfits, hl⟩ | ⟨hlong, hl⟩
  · refine ⟨fun hlong => by omega, fun _ => ⟨by rw [hl], loadProgram_only s bytes, fun k hk => ?_, fun a ha => ?_⟩⟩
    · rw [hl, readByte_memWriteBytes _ _ _ hwf, if_pos (by omega), Nat.add_sub_cancel_left]
    · rw [hl, readByte_memWriteBytes _ _ _ hwf, if_neg (by omega)]
  · exact ⟨fun _ => hl, fun hfits => by omega⟩

/-- Settles O51: `writeByte` is the instruction layer's store with the report of success. -/
theorem byteAccessIsBoundedAndReadsTheLastWrite : Obligations.ByteAccessIsBoundedAndReadsTheLastWrite := by
  intro s a b v
  refine ⟨fun hout => ?_, fun hin => ?_, writeByte_only s a v, fun hin hwf => ?_⟩
  · rcases writeByte_cases s a v with ⟨-, hw⟩ | ⟨hin, -⟩
    · exact ⟨by rw [readByte_eq, if_neg (by omega)], hw⟩
    · omega
  · rcases writeByte_cases s a v with ⟨hout, -⟩ | ⟨-, hw⟩
    · omega
    · exact ⟨by rw [readByte_eq, if_pos hin]; rfl, by rw [hw]⟩
  · have hread := readByte_memWrite a v b hwf
    have hiff : (b = a ∧ b < 4096) ↔ b = a := and_iff_left_of_imp fun hb => by omega
    simp only [hiff] at hread
    exact hread

end Sys2Proof.Machine
end

section
/-! SUPPORT. The decoder and the encoder against each other and against the opcode map (spec/30_encoding.md R81 to R89):
a word put together again from its fields, an instruction read back from its word, the row that a word selects, and the
words that no row takes, with their number in each family. -/

namespace Sys2Proof.Machine

/-! ### A word put together again from its fields (R81, R89) -/

theorem encodeNNN_of_fieldTop {op : Word} {top : Nibble} (ht : (fieldTop op).toNat = top.toNat) :
    encodeNNN top (fieldNNN op) = op := by
  apply BitVec.eq_of_toNat_eq
  rw [encodeNNN_toNat, fieldNNN_toNat, ← ht, fieldTop_toNat]
  omega

theorem encodeXNN_of_fields {op : Word} {top : Nibble} {nn : Byte} (ht : (fieldTop op).toNat = top.toNat)
    (hnn : (fieldNN op).toNat = nn.toNat) : encodeXNN top (fieldX op) nn = op := by
  apply BitVec.eq_of_toNat_eq
  rw [encodeXNN_toNat, fieldX_val, ← hnn, fieldNN_toNat, ← ht, fieldTop_toNat]
  omega

theorem encodeXYN_of_fields {op : Word} {top n : Nibble} (ht : (fieldTop op).toNat = top.toNat)
    (hn : (fieldN op).toNat = n.toNat) : encodeXYN top (fieldX op) (fieldY op) n = op := by
  apply BitVec.eq_of_toNat_eq
  rw [encodeXYN_toNat, fieldX_val, fieldY_val, ← hn, fieldN_toNat, ← ht, fieldTop_toNat]
  omega

theorem encode_decodeFamily0 (op : Word) : encode (decodeFamily0 op) = op := by
  unfold decodeFamily0
  split_ifs with hclear hret
  · exact hclear.symm
  · exact hret.symm
  · rfl

theorem encode_decodeFamily8 {op : Word} (ht : (fieldTop op).toNat = 0x8) : encode (decodeFamily8 op) = op := by
  unfold decodeFamily8
  split
  case h_10 => rfl
  all_goals next hn => exact encodeXYN_of_fields ht hn

theorem encode_decodeFamilyE {op : Word} (ht : (fieldTop op).toNat = 0xE) : encode (decodeFamilyE op) = op := by
  unfold decodeFamilyE
  split
  case h_3 => rfl
  all_goals next hnn => exact encodeXNN_of_fields ht hnn

theorem encode_decodeFamilyF {op : Word} (ht : (fieldTop op).toNat = 0xF) : encode (decodeFamilyF op) = op := by
  unfold decodeFamilyF
  split
  case h_10 => rfl
  all_goals next hnn => exact encodeXNN_of_fields ht hnn

/-- The decoder drops no bit of a word, family by family. -/
theorem encode_decode (op : Word) : encode (decode op) = op := by
  unfold decode
  split
  case h_1 => exact encode_decodeFamily0 op
  case h_9 ht => exact encode_decodeFamily8 ht
  case h_15 ht => exact encode_decodeFamilyE ht
  case h_16 =>
    have := (fieldTop op).isLt
    simp only [imp_false] at *
    exact encode_decodeFamilyF (by omega)
  case h_2 ht | h_3 ht | h_11 ht | h_12 ht => exact encodeNNN_of_fieldTop ht
  case h_4 ht | h_5 ht | h_7 ht | h_8 ht | h_13 ht => exact encodeXNN_of_fields ht rfl
  case h_6 ht | h_10 ht | h_14 ht => exact encodeXYN_of_fields ht rfl

/-! ### An instruction read back from its word (R82, R85) -/

theorem isUnrecognized_iff (i : Instr) : isUnrecognized i = true ↔ ∃ op, i = .opUnrecognized op := by
  cases i <;> simp [isUnrecognized]

/-- The fields of an encoded word are its operands, and the constant ones select the arm: the top nibble alone, or with
it the secondary dispatch of the families 8, E and F (R84). -/
theorem decode_encode_of_row {i : Instr} (h : isUnrecognized i = false) : decode (encode i) = i := by
  cases i
  case opUnrecognized => cases h
  case op00E0 | op00EE => rfl
  case op1nnn | op2nnn | opAnnn | opBnnn | op3xnn | op4xnn | op6xnn | op7xnn | opCxnn | op5xy0 | op9xy0 | opDxyn =>
    simp [encode, decode]
  case op8xy0 | op8xy1 | op8xy2 | op8xy3 | op8xy4 | op8xy5 | op8xy6 | op8xy7 | op8xyE =>
    simp [encode, decode, decodeFamily8]
  case opEx9E | opExA1 => simp [encode, decode, decodeFamilyE]
  case opFx07 | opFx0A | opFx15 | opFx18 | opFx1E | opFx29 | opFx33 | opFx55 | opFx65 =>
    simp [encode, decode, decodeFamilyF]

/-! ### The row of an instruction (R85) -/

/-- `op` selects a row of the opcode map that bears the mnemonic `mn`. -/
def SelectsRowOf (op : Word) (mn : String) : Prop := ∃ r ∈ opcodeRows, r.mnemonic = mn ∧ r.selectedBy op = true

theorem selectsRow_of_fieldTop {op : Word} {top : Nibble} {mn : String} (ht : fieldTop op = top)
    (hr : ⟨mn, encodeNNN top 0#12, 0xF000⟩ ∈ opcodeRows) : SelectsRowOf op mn := by
  refine ⟨_, hr, rfl, beq_iff_eq.2 (BitVec.eq_of_toNat_eq ?_)⟩
  rw [and_F000_toNat, encodeNNN_toNat, ← ht, fieldTop_toNat, BitVec.toNat_zero, Nat.add_zero]

theorem selectsRow_of_fieldTop_fieldN {op : Word} {top n : Nibble} {mn : String} (ht : fieldTop op = top)
    (hn : fieldN op = n) (hr : ⟨mn, encodeXYN top 0 0 n, 0xF00F⟩ ∈ opcodeRows) : SelectsRowOf op mn := by
  refine ⟨_, hr, rfl, beq_iff_eq.2 (BitVec.eq_of_toNat_eq ?_)⟩
  rw [and_F00F_toNat, encodeXYN_toNat, ← ht, ← hn, fieldTop_toNat, fieldN_toNat, Fin.val_zero]
  omega

theorem selectsRow_of_fieldTop_fieldNN {op : Word} {top : Nibble} {nn : Byte} {mn : String} (ht : fieldTop op = top)
    (hnn : fieldNN op = nn) (hr : ⟨mn, encodeXNN top 0 nn, 0xF0FF⟩ ∈ opcodeRows) : SelectsRowOf op mn := by
  refine ⟨_, hr, rfl, beq_iff_eq.2 (BitVec.eq_of_toNat_eq ?_)⟩
  rw [and_F0FF_toNat, encodeXNN_toNat, ← ht, ← hnn, fieldTop_toNat, fieldNN_toNat, Fin.val_zero]
  omega

/-- The word of an instruction selects the row the instruction is named after; that the row is in the map is read off
the map. -/
theorem encode_selectsRow {i : Instr} (h : isUnrecognized i = false) : SelectsRowOf (encode i) i.mnemonic := by
  cases i
  case opUnrecognized => cases h
  case op00E0 => exact ⟨⟨"00E0", 0x00E0, 0xFFFF⟩, of_decide_eq_true rfl, rfl, rfl⟩
  case op00EE => exact ⟨⟨"00EE", 0x00EE, 0xFFFF⟩, of_decide_eq_true rfl, rfl, rfl⟩
  case op1nnn | op2nnn | opAnnn | opBnnn =>
    exact selectsRow_of_fieldTop (fieldTop_encodeNNN _ _) (of_decide_eq_true rfl)
  case op3xnn | op4xnn | op6xnn | op7xnn | opCxnn =>
    exact selectsRow_of_fieldTop (fieldTop_encodeXNN _ _ _) (of_decide_eq_true rfl)
  case op5xy0 | op9xy0 | opDxyn =>
    exact selectsRow_of_fieldTop (fieldTop_encodeXYN _ _ _ _) (of_decide_eq_true rfl)
  case op8xy0 | op8xy1 | op8xy2 | op8xy3 | op8xy4 | op8xy5 | op8xy6 | op8xy7 | op8xyE =>
    exact selectsRow_of_fieldTop_fieldN (fieldTop_encodeXYN _ _ _ _) (fieldN_encodeXYN _ _ _ _)
      (of_decide_eq_true rfl)
  case opEx9E | opExA1 | opFx07 | opFx0A | opFx15 | opFx18 | opFx1E | opFx29 | opFx33 | opFx55 | opFx65 =>
    exact selectsRow_of_fieldTop_fieldNN (fieldTop_encodeXNN _ _ _) (fieldNN_encodeXNN _ _ _)
      (of_decide_eq_true rfl)

/-! ### The words that no row takes (R86, R87) -/

/-- The low nibbles that family 8 leaves over (R87). -/
abbrev lowNibblesLeftOver8 : List Nat := [0x8, 0x9, 0xA, 0xB, 0xC, 0xD, 0xF]

/-- The low bytes that the rows of family E take (R85). -/
abbrev lowBytesTakenE : List Nat := [0x9E, 0xA1]

/-- The low bytes that the rows of family F take (R85). -/
abbrev lowBytesTakenF : List Nat := [0x07, 0x0A, 0x15, 0x18, 0x1E, 0x29, 0x33, 0x55, 0x65]

/-- The unrecognized words as R87 lists them. -/
def UnrecognizedNumber (w : Nat) : Prop :=
  (w < 0x1000 ∧ w ≠ 0x00E0 ∧ w ≠ 0x00EE) ∨
  (w / 0x1000 = 0x8 ∧ w % 0x10 ∈ lowNibblesLeftOver8) ∨
  (w / 0x1000 = 0xE ∧ w % 0x100 ∉ lowBytesTakenE) ∨
  (w / 0x1000 = 0xF ∧ w % 0x100 ∉ lowBytesTakenF)

/-- Every row fixes the top nibble, and in the families 0, 8, E and F also what tells its words from those left
over (R84, R85). -/
theorem opcodeRows_masks : ∀ r ∈ opcodeRows,
    (r.mask = 0xFFFF ∧ r.code.toNat ∈ [0x00E0, 0x00EE]) ∨
    (r.mask = 0xF000 ∧ r.code.toNat / 0x1000 ∉ [0x0, 0x8, 0xE, 0xF]) ∨
    (r.mask = 0xF00F ∧ r.code.toNat / 0x1000 = 0x8 ∧ r.code.toNat % 0x10 ∉ lowNibblesLeftOver8) ∨
    (r.mask = 0xF0FF ∧ r.code.toNat / 0x1000 = 0xE ∧ r.code.toNat % 0x100 ∈ lowBytesTakenE) ∨
    (r.mask = 0xF0FF ∧ r.code.toNat / 0x1000 = 0xF ∧ r.code.toNat % 0x100 ∈ lowBytesTakenF) := by
  decide

/-- A listed word differs from every row in a bit the row fixes, mask by mask. -/
theorem not_selectedBy_of_unrecognizedNumber {op : Word} (h : UnrecognizedNumber op.toNat) {r : OpcodeRow}
    (hr : r ∈ opcodeRows) : r.selectedBy op = false := by
  rw [OpcodeRow.selectedBy, beq_eq_false_iff_ne]
  intro hsel
  replace hsel : (op &&& r.mask).toNat = r.code.toNat := congrArg BitVec.toNat hsel
  have hrow := opcodeRows_masks r hr
  simp only [List.mem_cons, List.not_mem_nil, or_false, not_or] at hrow
  simp only [UnrecognizedNumber, List.mem_cons, List.not_mem_nil, or_false, not_or] at h
  obtain ⟨hmask, hcode⟩ | ⟨hmask, hcode⟩ | ⟨hmask, hcode⟩ | ⟨hmask, hcode⟩ | ⟨hmask, hcode⟩ := hrow
  all_goals rw [hmask] at hsel
  · rw [show op &&& 0xFFFF = op from BitVec.and_allOnes] at hsel
    omega
  · rw [and_F000_toNat] at hsel
    omega
  · rw [and_F00F_toNat] at hsel
    omega
  · rw [and_F0FF_toNat] at hsel
    omega
  · rw [and_F0FF_toNat] at hsel
    omega

theorem decodeFamily0_unrecognized {op : Word} (h : isUnrecognized (decodeFamily0 op) = true) :
    op.toNat ≠ 0x00E0 ∧ op.toNat ≠ 0x00EE := by
  unfold decodeFamily0 at h
  split_ifs at h with hclear hret
  case neg => exact ⟨fun he => hclear (BitVec.eq_of_toNat_eq he), fun he => hret (BitVec.eq_of_toNat_eq he)⟩
  all_goals cases h

theorem decodeFamily8_unrecognized {op : Word} (h : isUnrecognized (decodeFamily8 op) = true) :
    op.toNat % 0x10 ∈ lowNibblesLeftOver8 := by
  rw [← fieldN_toNat]
  unfold decodeFamily8 at h
  split at h
  case h_10 =>
    have := (fieldN op).isLt
    simp only [imp_false] at *
    simp only [List.mem_cons, List.not_mem_nil, or_false]
    omega
  all_goals cases h

theorem decodeFamilyE_unrecognized {op : Word} (h : isUnrecognized (decodeFamilyE op) = true) :
    op.toNat % 0x100 ∉ lowBytesTakenE := by
  rw [← fieldNN_toNat]
  unfold decodeFamilyE at h
  split at h
  case h_3 => simp_all
  all_goals cases h

theorem decodeFamilyF_unrecognized {op : Word} (h : isUnrecognized (decodeFamilyF op) = true) :
    op.toNat % 0x100 ∉ lowBytesTakenF := by
  rw [← fieldNN_toNat]
  unfold decodeFamilyF at h
  split at h
  case h_10 => simp_all
  all_goals cases h

theorem unrecognizedNumber_of_decode {op : Word} (h : isUnrecognized (decode op) = true) :
    UnrecognizedNumber op.toNat := by
  have htop := fieldTop_toNat op
  unfold decode at h
  split at h
  case h_1 => exact .inl ⟨by omega, decodeFamily0_unrecognized h⟩
  case h_9 => exact .inr (.inl ⟨by omega, decodeFamily8_unrecognized h⟩)
  case h_15 => exact .inr (.inr (.inl ⟨by omega, decodeFamilyE_unrecognized h⟩))
  case h_16 =>
    have := op.isLt
    simp only [imp_false] at *
    exact .inr (.inr (.inr ⟨by omega, decodeFamilyF_unrecognized h⟩))
  all_goals cases h

theorem decode_of_isUnrecognized {op : Word} (h : isUnrecognized (decode op) = true) :
    decode op = .opUnrecognized op := by
  obtain ⟨w, hw⟩ := (isUnrecognized_iff _).1 h
  have hop : encode (decode op) = op := encode_decode op
  rw [hw] at hop ⊢
  exact congrArg Instr.opUnrecognized hop

/-- What the decoder, R87's list and the opcode map call unrecognized is the same. -/
theorem unrecognized_tfae (op : Word) : [decode op = .opUnrecognized op, isUnrecognized (decode op) = true,
    UnrecognizedNumber op.toNat, ∀ r ∈ opcodeRows, r.selectedBy op = false].TFAE := by
  tfae_have 1 → 2 := fun h => (isUnrecognized_iff _).2 ⟨op, h⟩
  tfae_have 2 → 3 := unrecognizedNumber_of_decode
  tfae_have 3 → 4 := fun h _ hr => not_selectedBy_of_unrecognizedNumber h hr
  tfae_have 4 → 1 := fun hnone => by
    cases hu : isUnrecognized (decode op) with
    | true => exact decode_of_isUnrecognized hu
    | false =>
      obtain ⟨r, hr, -, hsel⟩ := encode_selectsRow hu
      rw [encode_decode, hnone r hr] at hsel
      cases hsel
  tfae_finish

theorem decode_eq_opUnrecognized_iff (op : Word) : decode op = .opUnrecognized op ↔ UnrecognizedNumber op.toNat :=
  (unrecognized_tfae op).out 0 2

theorem isUnrecognized_decode_iff (op : Word) : isUnrecognized (decode op) = true ↔ UnrecognizedNumber op.toNat :=
  (unrecognized_tfae op).out 1 2

theorem decode_eq_opUnrecognized_iff_no_row (op : Word) :
    decode op = .opUnrecognized op ↔ ∀ r ∈ opcodeRows, r.selectedBy op = false :=
  (unrecognized_tfae op).out 0 3

theorem wellFormed_iff (i : Instr) : i.wellFormed = true ↔ ∀ op, i = .opUnrecognized op → decode op = i := by
  cases i
  case opUnrecognized op =>
    have hrec : recognized op = false ↔ decode op = .opUnrecognized op := by
      rw [decode_eq_opUnrecognized_iff_no_row, recognized, List.any_eq_false]
      simp only [Bool.not_eq_true]
    simp [Instr.wellFormed, hrec]
  all_goals exact iff_of_true rfl nofun

/-- Decoding inverts encoding: on the instructions of a row field by field, and a word that no row takes decodes to
itself. -/
theorem decode_encode {i : Instr} (hwf : i.wellFormed = true) : decode (encode i) = i := by
  cases hu : isUnrecognized i with
  | false => exact decode_encode_of_row hu
  | true =>
    obtain ⟨op, rfl⟩ := (isUnrecognized_iff i).1 hu
    exact (wellFormed_iff _).1 hwf op rfl

theorem wellFormed_decode (op : Word) : (decode op).wellFormed = true := by
  refine (wellFormed_iff _).2 fun w hw => ?_
  have hop : w = op := by rw [← encode_decode op, hw, encode]
  rw [hop]

theorem decodeBytes_encodeBytes {i : Instr} (rest : List Byte) (hwf : i.wellFormed = true) :
    decodeBytes (encodeBytes i ++ rest) = .ok (i, rest) := by
  rw [encodeBytes, bytesOfWord, List.cons_append, List.cons_append, List.nil_append, decodeBytes,
    wordOfBytes_hiByte_loByte, decode_encode hwf]

/-! ### The opcode map is a partition (R86) -/

theorem eq_of_selectedBy {op : Word} {r r' : OpcodeRow} (hr : r ∈ opcodeRows) (hr' : r' ∈ opcodeRows)
    (h : r.selectedBy op = true) (h' : r'.selectedBy op = true) : r = r' := by
  by_contra hne
  have hsymm : Std.Symm fun r r' : OpcodeRow =>
      r.code &&& (r.mask &&& r'.mask) ≠ r'.code &&& (r.mask &&& r'.mask) :=
    ⟨fun r r' hdiff => BitVec.and_comm r'.mask r.mask ▸ hdiff.symm⟩
  have hagree : r.code &&& (r.mask &&& r'.mask) = r'.code &&& (r.mask &&& r'.mask) := by
    rw [← beq_iff_eq.1 h, ← beq_iff_eq.1 h']
    ext k
    simp only [BitVec.getElem_and]
    grind
  exact opcodeRows_disjoint.forall hr hr' hne hagree

theorem opcodeRows_mnemonic_nodup : (opcodeRows.map OpcodeRow.mnemonic).Nodup := by
  decide

theorem unrecognized_not_mem_mnemonics : "UNRECOGNIZED" ∉ opcodeRows.map OpcodeRow.mnemonic := by
  decide

/-- A word that selects any row decodes to the instruction of the one row it selects. -/
theorem selectedBy_iff_mnemonic {op : Word} {r : OpcodeRow} (hr : r ∈ opcodeRows) :
    r.selectedBy op = true ↔ (decode op).mnemonic = r.mnemonic := by
  cases hu : isUnrecognized (decode op) with
  | true =>
    have hdec := decode_of_isUnrecognized hu
    refine iff_of_false (by simp [(decode_eq_opUnrecognized_iff_no_row op).1 hdec r hr]) fun hmn => ?_
    rw [hdec] at hmn
    exact unrecognized_not_mem_mnemonics (List.mem_map.2 ⟨r, hr, hmn.symm⟩)
  | false =>
    obtain ⟨r', hr', hmn', hsel'⟩ := encode_selectsRow hu
    rw [encode_decode] at hsel'
    constructor
    · intro hsel
      rw [eq_of_selectedBy hr hr' hsel hsel', hmn']
    · intro hmn
      rw [List.inj_on_of_nodup_map opcodeRows_mnemonic_nodup hr hr' (hmn.symm.trans hmn'.symm)]
      exact hsel'

/-! ### How many words each family leaves over (R87) -/

theorem count_mod_self (p : Nat → Prop) [DecidablePred p] (b : Nat) :
    Nat.count (fun k => p (k % b)) b = Nat.count p b :=
  List.countP_congr fun k hk => by simp only [Nat.mod_eq_of_lt (List.mem_range.1 hk)]

/-- A property of the residue modulo `b` holds equally often in each of `a` periods. -/
theorem count_mod_mul (p : Nat → Prop) [DecidablePred p] (a b : Nat) :
    Nat.count (fun k => p (k % b)) (a * b) = a * Nat.count p b := by
  induction a with
  | zero => rw [Nat.zero_mul, Nat.zero_mul, Nat.count_zero]
  | succ a ih =>
    rw [Nat.succ_mul, Nat.succ_mul, Nat.count_add, ih]
    simp only [Nat.mul_add_mod_self_right, count_mod_self]

/-- All numbers below `n` but those of a list. -/
theorem count_not_mem {l : List Nat} {n : Nat} (hnodup : l.Nodup) (hlt : ∀ k ∈ l, k < n) :
    Nat.count (· ∉ l) n = n - l.length := by
  have hsub : l.toFinset ⊆ Finset.range n := fun k hk => Finset.mem_range.2 (hlt k (List.mem_toFinset.1 hk))
  have hdiff : (Finset.range n).filter (· ∉ l) = Finset.range n \ l.toFinset := by
    ext k
    rw [Finset.mem_filter, Finset.mem_sdiff, List.mem_toFinset]
  rw [Nat.count_eq_card_filter_range, hdiff, Finset.card_sdiff_of_subset hsub, Finset.card_range,
    List.toFinset_card_of_nodup hnodup]

/-- The `k`-th word of the family `top` is left over. -/
def LeftOver (top k : Nat) : Prop :=
  (top = 0x0 ∧ k ∉ [0x00E0, 0x00EE]) ∨ (top = 0x8 ∧ k % 0x10 ∈ lowNibblesLeftOver8) ∨
    (top = 0xE ∧ k % 0x100 ∉ lowBytesTakenE) ∨ (top = 0xF ∧ k % 0x100 ∉ lowBytesTakenF)

theorem unrecognizedNumber_iff_leftOver (top : Nat) {k : Nat} (hk : k < 4096) :
    UnrecognizedNumber (4096 * top + k) ↔ LeftOver top k := by
  have hfamily : (4096 * top + k) / 0x1000 = top := by omega
  have hnibble : (4096 * top + k) % 0x10 = k % 0x10 := by omega
  have hbyte : (4096 * top + k) % 0x100 = k % 0x100 := by omega
  have hfamily0 : 4096 * top + k < 0x1000 ∧ 4096 * top + k ≠ 0x00E0 ∧ 4096 * top + k ≠ 0x00EE ↔
      top = 0x0 ∧ k ∉ [0x00E0, 0x00EE] := by
    simp only [List.mem_cons, List.not_mem_nil, or_false, not_or]
    omega
  rw [UnrecognizedNumber, hfamily0, hfamily, hnibble, hbyte, LeftOver]

theorem unrecognizedInFamily_eq_count {top : Nat} (htop : top < 16) (p : Nat → Prop) [DecidablePred p]
    (hp : ∀ k, LeftOver top k ↔ p k) : unrecognizedInFamily top = Nat.count p 4096 := by
  rw [unrecognizedInFamily, ← List.countP_eq_length_filter, Nat.count]
  refine List.countP_congr fun k hk => ?_
  have hk : k < 4096 := List.mem_range.1 hk
  have hop : (BitVec.ofNat 16 (4096 * top + k)).toNat = 4096 * top + k := by
    rw [BitVec.toNat_ofNat, Nat.mod_eq_of_lt (by omega)]
  rw [isUnrecognized_decode_iff, hop, unrecognizedNumber_iff_leftOver top hk, hp, decide_eq_true_iff]

/-- The counts of R87. -/
def unrecognizedCount (top : Nat) : Nat :=
  if top = 0x0 then 4094 else if top = 0x8 then 1792 else if top = 0xE then 4064 else if top = 0xF then 3952 else 0

/-- Family 0 takes two words out of 4096; families 8, E and F repeat themselves every 16, 256 and 256 words. -/
theorem unrecognizedInFamily_eq {top : Nat} (htop : top < 16) : unrecognizedInFamily top = unrecognizedCount top := by
  have hcount := fun p [DecidablePred p] => unrecognizedInFamily_eq_count htop p
  unfold unrecognizedCount
  split_ifs with h0 h8 hE hF
  · rw [hcount (· ∉ [0x00E0, 0x00EE]) fun k => by simp [LeftOver, h0], count_not_mem (by decide) (by decide)]
    rfl
  · rw [hcount (· % 16 ∈ lowNibblesLeftOver8) fun k => by simp [LeftOver, h8]]
    exact count_mod_mul (· ∈ lowNibblesLeftOver8) 256 16
  · rw [hcount (· % 256 ∉ lowBytesTakenE) fun k => by simp [LeftOver, hE],
      count_mod_mul (· ∉ lowBytesTakenE) 16 256, count_not_mem (by decide) (by decide)]
    rfl
  · rw [hcount (· % 256 ∉ lowBytesTakenF) fun k => by simp [LeftOver, hF],
      count_mod_mul (· ∉ lowBytesTakenF) 16 256, count_not_mem (by decide) (by decide)]
    rfl
  · rw [hcount (fun _ => False) fun k => by simp [LeftOver, h0, h8, hE, hF], Nat.count_false]

/-! ### The default advance -/

theorem exec_opUnrecognized (op : Word) (s : State) : exec (.opUnrecognized op) s = .next s.advance := rfl

theorem advancedBy2_advance (s : State) : AdvancedBy2 s s.advance := BitVec.toNat_add s.pc 2

end Sys2Proof.Machine
end

section
/-! PROOFS. The statements on the encoding (spec/30_encoding.md), settled from the lemmas above. -/

namespace Sys2Proof.Machine

/-- Settles O1, format by format for the instructions of a row, and by the opcode map for the words left over. -/
theorem decodeInvertsEncode : Obligations.DecodeInvertsEncode :=
  fun _ => decode_encode

/-- Settles O2: the word is put together again from its fields. -/
theorem encodeInvertsDecode : Obligations.EncodeInvertsDecode :=
  fun op => ⟨encode_decode op, wellFormed_decode op⟩

/-- Settles O3: the rows share no word, and the word of an instruction selects the row named by its mnemonic. -/
theorem decodeFollowsTheOpcodeMap : Obligations.DecodeFollowsTheOpcodeMap := fun op =>
  ⟨fun _ hr => selectedBy_iff_mnemonic hr, fun _ hr _ hr' => eq_of_selectedBy hr hr',
    (decode_eq_opUnrecognized_iff_no_row op).symm⟩

/-- Settles O4: the list is R87's, the counts are taken family by family, and the execution is the default advance. -/
theorem unrecognizedWordsAreExactlyTheListedNoOps : Obligations.UnrecognizedWordsAreExactlyTheListedNoOps := by
  have hsum : ((List.range 16).map unrecognizedInFamily).sum = 13902 := by
    rw [List.map_congr_left fun top htop => unrecognizedInFamily_eq (List.mem_range.1 htop)]
    decide
  exact ⟨decode_eq_opUnrecognized_iff, unrecognizedInFamily_eq (by decide), unrecognizedInFamily_eq (by decide),
    unrecognizedInFamily_eq (by decide), unrecognizedInFamily_eq (by decide), hsum,
    fun op s => ⟨s.advance, exec_opUnrecognized op s, rfl, advancedBy2_advance s⟩⟩

/-- Settles O5: each pair is the bytes of the well-formed instruction named. -/
theorem scenarioBytesDecode : Obligations.ScenarioBytesDecode :=
  ⟨decodeBytes_encodeBytes (i := .op6xnn 0 0x42) [] rfl, decodeBytes_encodeBytes (i := .op6xnn 1 0x20) [] rfl,
    decodeBytes_encodeBytes (i := .op8xy4 0 1) [] rfl, decodeBytes_encodeBytes (i := .op2nnn 0x300) [] rfl,
    decodeBytes_encodeBytes (i := .op00EE) [] rfl, decodeBytes_encodeBytes (i := .opUnrecognized 0) [] rfl⟩

end Sys2Proof.Machine
end

section
/-! SUPPORT. The cycle (spec/40_cycle.md): what is fetched where a byte of the word is not in memory (R101), where PC
goes (R104, R105), that a cycle completes (R108), and the Interpreter in which a driver's cycle runs (R110). -/

namespace Sys2Proof.Machine

/-! ### Fetch (R101) -/

theorem memRead_of_le {a : Nat} (s : State) (h : 4096 ≤ a) : s.memRead a = 0 := by
  rw [memRead_eq, if_neg (by omega)]

theorem fetch_toNat (s : State) :
    s.fetch.toNat = 256 * (s.memRead s.pc.toNat).toNat + (s.memRead (s.pc.toNat + 1)).toNat :=
  wordOfBytes_toNat _ _

/-- The word fetched depends on the Interpreter only. -/
theorem fetch_of_sameInterpreter {s u : State} (h : SameInterpreter s u) : u.fetch = s.fetch := by
  obtain ⟨-, hpc, -, -, -, -, -, hmem, hconfig⟩ := h
  rw [State.fetch, State.fetch, State.memReadWord, State.memReadWord, hpc, memRead_congr hmem hconfig,
    memRead_congr hmem hconfig]

/-- A cycle executes the instruction whose word is fetched (R102, R103). -/
theorem cycle_of_fetch {i : Instr} {s : State} (hwf : i.wellFormed = true) (h : s.fetch = encode i) :
    cycle s = exec i s := by
  rw [cycle, State.fetchInstr, h, decode_encode hwf]

/-! ### The Interpreter in which a driver's cycle runs -/

/-- The poll leaves the Interpreter as it was (R225). -/
theorem pollOpen_sameInterpreter {s u : State} {b : Bool} (h : s.pollOpen = (b, u)) : SameInterpreter s u := by
  obtain rfl : s.pollOpen.2 = u := congrArg Prod.snd h
  rw [pollOpen_only]
  exact sameInterpreter_refl s

/-- A time sample leaves the Interpreter as it was (R222). -/
theorem sampleNow_sameInterpreter {s u : State} (h : SameInterpreter s u) : SameInterpreter s u.sampleNow := by
  rw [sampleNow_only]
  exact h

theorem attemptFrom_sameInterpreter {s u : State} (h : AttemptFrom s u) : SameInterpreter s u := by
  rcases h with ⟨-, hpoll, -⟩ | ⟨-, rfl⟩
  · exact pollOpen_sameInterpreter hpoll
  · exact sameInterpreter_refl u

theorem iterationFrom_sameInterpreter {s u : State} (h : IterationFrom s u) : SameInterpreter s u := by
  rcases h with ⟨-, s', hpoll, rfl⟩ | ⟨-, rfl⟩
  · exact sampleNow_sameInterpreter (pollOpen_sameInterpreter hpoll)
  · exact sameInterpreter_refl u

/-! ### Where PC goes (R104, R105) -/

theorem advancedBy2_of_pc {s t : State} (h : t.pc = s.pc + 2) : AdvancedBy2 s t := by
  rw [AdvancedBy2, h]
  exact BitVec.toNat_add s.pc 2

theorem skippedIf_of_pc {s t : State} {c : Bool} (h : t.pc = s.pc + if c then 4 else 2) :
    SkippedIf (c = true) s t := by
  rw [SkippedIf, h]
  cases c
  · exact BitVec.toNat_add s.pc 2
  · exact BitVec.toNat_add s.pc 4

theorem immAddr_toNat (nnn : Addr12) : (immAddr nnn).toNat = nnn.toNat :=
  BitVec.toNat_setWidth_of_le (by decide)

theorem byteToWord_toNat (b : Byte) : (byteToWord b).toNat = b.toNat :=
  BitVec.toNat_setWidth_of_le (by decide)

theorem offsetTarget_toNat (s : State) (nnn : Addr12) :
    (s.offsetTarget nnn).toNat = (nnn.toNat + (s.getV 0).toNat) % 65536 := by
  rw [State.offsetTarget, BitVec.toNat_add, immAddr_toNat, byteToWord_toNat]

/-- No direct set of PC wraps (R121 to R123). -/
theorem directTarget_lt (i : Instr) (s : State) : directTarget i s < 65536 := by
  unfold directTarget
  split
  next nnn => have := nnn.isLt; omega
  next nnn => have := nnn.isLt; omega
  next nnn => have := nnn.isLt; have := (s.getV 0).isLt; omega
  next => decide

/-- An instruction that has completed has moved PC to where its advance class says, modulo 65536 (R24, R104). -/
theorem exec_pc {i : Instr} {s t : State} (h : exec i s = .next t) (hdone : isKeyWait i = false ∨ t.waiting = false) :
    t.pc.toNat = unwrappedPc i s % 65536 := by
  cases i
  case op00E0 => cases h; exact advancedBy2_of_pc (by rw [advance_pc, displayClear_only])
  case op00EE =>
    simp only [exec, exec00EE] at h
    split at h
    · cases h; exact BitVec.toNat_add (s.pop.1.getD 0) 2
    · cases h
  case op1nnn nnn =>
    cases h
    rw [jump_pc, immAddr_toNat]
    exact (Nat.mod_eq_of_lt (directTarget_lt (.op1nnn nnn) s)).symm
  case op2nnn nnn =>
    simp only [exec, exec2nnn] at h
    split at h
    · cases h
      rw [jump_pc, immAddr_toNat]
      exact (Nat.mod_eq_of_lt (directTarget_lt (.op2nnn nnn) s)).symm
    · cases h
  case opBnnn nnn => cases h; exact offsetTarget_toNat s nnn
  case op3xnn | op4xnn | op5xy0 | op9xy0 => cases h; exact skippedIf_of_pc rfl
  case opEx9E x =>
    rw [exec_opEx9E] at h
    cases h
    exact skippedIf_of_pc (by rw [skipIf_pc, keyPressed_only]; rfl)
  case opExA1 x =>
    rw [exec_opExA1] at h
    cases h
    exact skippedIf_of_pc (by rw [skipIf_pc, keyPressed_only]; rfl)
  case op8xy4 | op8xy5 | op8xy6 | op8xy7 | op8xyE =>
    cases h
    exact advancedBy2_of_pc (by rw [advance_pc, writeResultAndFlag_only])
  case opCxnn x nn =>
    rw [exec_opCxnn] at h
    cases h
    exact advancedBy2_of_pc (by rw [advance_pc, setV_pc, drawByte_only])
  case opDxyn x y n =>
    rw [exec_opDxyn, drawSprite_eq] at h
    cases h
    split
    · exact advancedBy2_of_pc (by rw [advance_pc, setV_pc, displayDraw_only])
    · exact advancedBy2_of_pc rfl
  case opFx0A x =>
    rw [exec_opFx0A] at h
    split at h
    · rcases askForKey_cases s x with ⟨k, -, hk⟩ | ⟨-, hk⟩
      · rw [hk, answerKey_only] at h
        cases h
        exact advancedBy2_of_pc rfl
      · rw [hk] at h
        cases h
        simp [isKeyWait] at hdone
    · cases h
      exact advancedBy2_of_pc rfl
  case opFx33 | opFx55 =>
    cases h
    exact advancedBy2_of_pc (by rw [advance_pc, memWriteBytes_only])
  all_goals (cases h; exact advancedBy2_of_pc rfl)

/-- An `Fx0A` that still waits has not moved PC (R109). -/
theorem exec_pc_of_hold {i : Instr} {s t : State} (h : exec i s = .next t) (hi : isKeyWait i = true)
    (ht : t.waiting = true) : t.pc = s.pc := by
  obtain ⟨-, -, rfl⟩ := exec_hold h ht fun _ => hi
  rw [answerKey_only]

theorem isKeyWait_eq_false_of_advanceClass_ne {i : Instr} (h : advanceClass i ≠ .default) : isKeyWait i = false := by
  cases i
  case opFx0A x => exact absurd rfl h
  all_goals rfl

/-! ### Completion (R108) -/

/-- What is refused is a call or a return on an ill-formed SP (R27, U19). -/
theorem exec_refused {i : Instr} {s : State} {r : Refusal} (h : exec i s = .refused r) :
    16 < s.sp.toNat ∧ r = .illFormedStackPointer ∧ (i = .op00EE ∨ ∃ nnn, i = .op2nnn nnn) := by
  have hsp : 16 < s.sp.toNat := by
    by_contra hle
    obtain ⟨t, ht⟩ := exec_next_of_sp_le i (Nat.le_of_not_lt hle)
    rw [ht] at h
    cases h
  have hbad : ¬ s.stackOk = true := fun hok => absurd ((stackOk_iff s).1 hok) (Nat.not_le_of_lt hsp)
  cases i
  case op00EE =>
    rw [exec, exec00EE, if_neg hbad] at h
    cases h
    exact ⟨hsp, rfl, .inl rfl⟩
  case op2nnn nnn =>
    rw [exec, exec2nnn, if_neg hbad] at h
    cases h
    exact ⟨hsp, rfl, .inr ⟨nnn, rfl⟩⟩
  all_goals cases h

theorem cycle_next_of_sp_le {s : State} (h : s.sp.toNat ≤ 16) : ∃ t, cycle s = .next t :=
  exec_next_of_sp_le s.fetchInstr h

theorem attemptBody_next_of_sp_le {s : State} (h : s.sp.toNat ≤ 16) : ∃ t, s.attemptBody = .next t := by
  obtain ⟨t, ht⟩ := cycle_next_of_sp_le h
  exact ⟨_, attemptBody_next ht⟩

theorem iterationBody_next_of_sp_le {s : State} (h : s.sp.toNat ≤ 16) : ∃ t, s.iterationBody = .next t := by
  cases hdue : s.cycleDue with
  | true =>
    obtain ⟨t, ht⟩ := cycle_next_of_sp_le h
    exact ⟨_, iterationBody_due hdue ht⟩
  | false => exact ⟨_, iterationBody_idle hdue⟩

theorem sp_le_of_sameInterpreter {s u : State} (h : SameInterpreter s u) (hsp : s.sp.toNat ≤ 16) :
    u.sp.toNat ≤ 16 := by
  obtain ⟨-, -, -, hu, -⟩ := h
  rwa [hu]

theorem debuggerStep_next_of_sp_le {s : State} (h : s.sp.toNat ≤ 16) : ∃ t, debuggerStep s = .next t := by
  unfold debuggerStep
  split
  next => exact attemptBody_next_of_sp_le h
  next =>
    split
    next u hpoll =>
      split
      · exact ⟨_, rfl⟩
      · exact attemptBody_next_of_sp_le (sp_le_of_sameInterpreter (pollOpen_sameInterpreter hpoll) h)
    next => exact ⟨_, rfl⟩

theorem schedulerStep_next_of_sp_le {s : State} (h : s.sp.toNat ≤ 16) : ∃ t, schedulerStep s = .next t := by
  unfold schedulerStep
  split
  next => exact iterationBody_next_of_sp_le h
  next =>
    split
    next u hpoll =>
      have hsame := sampleNow_sameInterpreter (pollOpen_sameInterpreter hpoll)
      exact iterationBody_next_of_sp_le (sp_le_of_sameInterpreter hsame h)
    next => exact ⟨_, rfl⟩

theorem hostCall_next_of_sp_le (c : HostCall) {s : State} (h : s.sp.toNat ≤ 16) : ∃ t, hostCall c s = .next t := by
  cases c
  case push a => exact ⟨_, by rw [hostCall, hostPush_eq, if_pos h]⟩
  case pop => exact ⟨_, by rw [hostCall, hostPop_eq, if_pos h]⟩
  all_goals exact ⟨_, rfl⟩

theorem hostStep_next_of_sp_le {s : State} (h : s.sp.toNat ≤ 16) : ∃ t, hostStep s = .next t := by
  unfold hostStep
  split
  next => exact ⟨s, rfl⟩
  next c rest hcalls => exact hostCall_next_of_sp_le c h

/-! ### The Debugger's fields play no part (R110) -/

/-- An instruction does the same with another breakpoint set and control state, and keeps them. -/
theorem exec_withDebugger {i : Instr} {s t : State} (bp : List Word) (c : DebugControl) (h : exec i s = .next t) :
    exec i { s with bp := bp, control := c } = .next { t with bp := bp, control := c } := by
  by_cases hi : ∃ x, i = .opFx18 x
  · obtain ⟨x, rfl⟩ := hi
    cases h
    rfl
  · have hst : t.st = s.st := (exec_timers h).2.resolve_right fun ⟨x, hx, _⟩ => hi ⟨x, hx⟩
    have ht : t.withUnread s.st bp c = { t with bp := bp, control := c } := by
      rw [← hst]
      rfl
    rw [← ht]
    exact exec_withUnread s.st bp c h fun x hx => hi ⟨x, hx⟩

end Sys2Proof.Machine
end

section
/-! PROOFS. The statements on the cycle (spec/40_cycle.md), settled from the lemmas above. -/

namespace Sys2Proof.Machine

/-- Settles O32: SP is all that an instruction can be refused for. -/
theorem everyInstructionCompletes : Obligations.EveryInstructionCompletes :=
  ⟨fun i _ => exec_next_of_sp_le i, fun _ => cycle_next_of_sp_le, fun _ _ _ => exec_refused⟩

/-- Settles O33: PC after a completed instruction, read class by class, and the hold of `Fx0A`. -/
theorem pcMovesByItsAdvanceClass : Obligations.PcMovesByItsAdvanceClass := by
  intro i s t h
  have hdone (hclass : advanceClass i ≠ .default) : t.pc.toNat = unwrappedPc i s % 65536 :=
    exec_pc h (.inl (isKeyWait_eq_false_of_advanceClass_ne hclass))
  refine ⟨fun hclass => ?_, fun hclass => ?_, fun hclass => ?_, fun hclass hwait => ?_, exec_pc_of_hold h⟩
  · have hpc := hdone (by simp [hclass])
    simp only [unwrappedPc, hclass] at hpc
    rwa [Nat.mod_eq_of_lt (directTarget_lt i s)] at hpc
  · simpa only [unwrappedPc, hclass] using hdone (by simp [hclass])
  · simpa only [unwrappedPc, hclass] using hdone (by simp [hclass])
  · simpa only [unwrappedPc, hclass] using exec_pc h hwait

/-- Settles O38: the word fetched depends on no field of the Debugger, and neither does its execution. -/
theorem theDebuggerIsInvisibleToTheProgram : Obligations.TheDebuggerIsInvisibleToTheProgram := by
  intro s t bp c h
  have hfetch : ({ s with bp := bp, control := c } : State).fetch = s.fetch :=
    fetch_of_sameInterpreter (sameInterpreter_refl s)
  rw [cycle, State.fetchInstr, hfetch]
  exact exec_withDebugger bp c h

/-- Settles O59, agent by agent: SP is in its range, and two drivers are never at work at once. -/
theorem wellFormedStatesAlwaysStep : Obligations.WellFormedStatesAlwaysStep := by
  intro s hs
  have hb := ((wf_iff s).1 hs).1
  cases hturn : s.turn with
  | scheduler => rw [step_of_scheduler hturn]; exact schedulerStep_next_of_sp_le hb.sp
  | debugger => rw [step_of_debugger hturn]; exact debuggerStep_next_of_sp_le hb.sp
  | host => rw [step_of_host hturn]; exact hostStep_next_of_sp_le hb.sp
  | conflict => exact absurd hturn hb.turn

/-- Settles O6: each of the two bytes is read on its own, as 0 where it is not in memory. -/
theorem fetchIsBigEndianWithAbsentBytesZero : Obligations.FetchIsBigEndianWithAbsentBytesZero := by
  intro s
  refine ⟨fetch_toNat s, fun hlast => ?_, fun hout => BitVec.eq_of_toNat_eq ?_⟩
  · rw [fetch_toNat, hlast, memRead_of_le s (by decide : 4096 ≤ 0xFFF + 1)]
    rfl
  · rw [fetch_toNat, memRead_of_le s hout, memRead_of_le s (by omega : 4096 ≤ s.pc.toNat + 1)]
    rfl

/-- Settles O7: a driver's cycle runs in the Interpreter as it was, so it fetches the same word. -/
theorem stepRunsTheDecodedInstruction : Obligations.StepRunsTheDecodedInstruction := by
  intro s i hwf hhi hlo
  have hfetch : s.fetch = encode i := by
    rw [State.fetch, State.memReadWord, hhi, hlo, wordOfBytes_hiByte_loByte]
  have hcycle {u : State} (hsame : SameInterpreter s u) : cycle u = exec i u :=
    cycle_of_fetch hwf ((fetch_of_sameInterpreter hsame).trans hfetch)
  refine ⟨hcycle (sameInterpreter_refl s), fun u t hturn hu ht => ?_, fun u t hturn hu hdue ht => ?_⟩
  · rw [← hcycle (attemptFrom_sameInterpreter hu)] at ht
    rw [step_of_debugger hturn, debuggerStep_of_attempt hu, attemptBody_next ht]
  · rw [← hcycle (iterationFrom_sameInterpreter hu)] at ht
    rw [step_of_scheduler hturn, schedulerStep_of_iteration hu, iterationBody_due hdue ht]

end Sys2Proof.Machine
end

section
/-! SUPPORT. The instructions of control transfer (spec/41_flow.md R120 to R123) and the glyph address
(spec/44_index_memory.md R173) as equations of `exec`, and the values that they write to PC and I. -/

namespace Sys2Proof.Machine

/-! ### Return and call, where SP is in its range (R27) -/

theorem exec_op00EE {s : State} (h : s.sp.toNat ≤ 16) :
    exec .op00EE s = .next (s.pop.2.returnTo (s.pop.1.getD 0)) :=
  if_pos ((stackOk_iff s).2 h)

theorem exec_op2nnn (nnn : Addr12) {s : State} (h : s.sp.toNat ≤ 16) :
    exec (.op2nnn nnn) s = .next ((s.push s.pc).2.jump (immAddr nnn)) :=
  if_pos ((stackOk_iff s).2 h)

/-- A push on a full stack changes nothing (R31). -/
theorem push_of_full {s : State} (h : 16 ≤ s.sp.toNat) (a : Word) : s.push a = (false, s) := by
  rcases push_cases s a with ⟨hlt, -⟩ | ⟨-, hp⟩
  · omega
  · exact hp

@[simp] theorem slot_jump (s : State) (w : Word) (k : Nat) : (s.jump w).slot k = s.slot k := rfl

/-! ### Jumps -/

theorem exec_op1nnn (nnn : Addr12) (s : State) : exec (.op1nnn nnn) s = .next (s.jump (immAddr nnn)) := rfl

theorem exec_opBnnn (nnn : Addr12) (s : State) : exec (.opBnnn nnn) s = .next (s.jump (s.offsetTarget nnn)) := rfl

/-- A jump to the instruction's own address is the halt idiom (R121). -/
theorem jump_immAddr_of_pc {s : State} {nnn : Addr12} (h : s.pc.toNat = nnn.toNat) : s.jump (immAddr nnn) = s := by
  have hpc : immAddr nnn = s.pc := BitVec.eq_of_toNat_eq ((immAddr_toNat nnn).trans h.symm)
  rw [hpc]
  rfl

/-- The target of `Bnnn` does not wrap: it is at most 0xFFF + 0xFF (R123). -/
theorem offsetTarget_toNat_eq_add (s : State) (nnn : Addr12) :
    (s.offsetTarget nnn).toNat = nnn.toNat + (s.getV 0).toNat := by
  rw [offsetTarget_toNat]
  exact Nat.mod_eq_of_lt (directTarget_lt (.opBnnn nnn) s)

/-! ### The glyph address (R173) -/

theorem exec_opFx29 (x : Reg) (s : State) : exec (.opFx29 x) s = .next (s.setI (glyphAddr (s.getV x))).advance := rfl

/-- Five times a byte is below 65536, so nothing is cut off. -/
theorem glyphAddr_toNat (b : Byte) : (glyphAddr b).toNat = b.toNat * 5 := by
  have hlt : b.toNat * 5 < 65536 := by
    have := b.isLt
    omega
  exact (BitVec.toNat_ofNat _ 16).trans (Nat.mod_eq_of_lt hlt)

end Sys2Proof.Machine
end

section
/-! PROOFS. The statements on control transfer (spec/41_flow.md), settled from the lemmas above. -/

namespace Sys2Proof.Machine

/-- Settles O9, by the two things a `pop` can do. -/
theorem returnPopsThenAddsTwo : Obligations.ReturnPopsThenAddsTwo := by
  intro s hsp
  refine ⟨_, exec_op00EE hsp, ?_⟩
  rcases pop_cases s with ⟨h0, hp⟩ | ⟨hne, hp⟩ <;> rw [hp]
  · exact ⟨rfl, fun _ => ⟨h0, rfl⟩, fun hne => absurd h0 hne⟩
  · have hdown : (s.sp - 1).toNat = s.sp.toNat - 1 := by bv_omega
    exact ⟨rfl, fun h0 => absurd h0 hne, fun _ => ⟨hdown, BitVec.toNat_add (s.slot (s.sp.toNat - 1)) 2⟩⟩

/-- Settles O10: the push that fits and the push on a full stack, each followed by the jump. -/
theorem callPushesItsOwnAddressAndJumps : Obligations.CallPushesItsOwnAddressAndJumps := by
  intro nnn s hsp
  refine ⟨_, exec_op2nnn nnn hsp, ?_, immAddr_toNat nnn, fun hlt => ?_, fun hfull => ?_⟩
  · rw [push_only]
    rfl
  · obtain ⟨-, hup, hslot⟩ := push_of_lt hlt s.pc
    exact ⟨by rw [jump_sp, hup]; bv_omega, fun k _ => by rw [slot_jump, hslot]⟩
  · rw [push_of_full hfull.ge]
    exact ⟨rfl, rfl⟩

/-- Settles O11: a jump is a write of PC, and writing the value it holds changes nothing. -/
theorem jumpSetsPcOnly : Obligations.JumpSetsPcOnly := fun nnn s =>
  ⟨encodeNNN_toNat 0x1 nnn, s.jump (immAddr nnn), exec_op1nnn nnn s, rfl, immAddr_toNat nnn, jump_immAddr_of_pc⟩

/-- Settles O12: neither the sum nor the product reaches 65536. -/
theorem offsetJumpAndGlyphAddressAreNotReduced : Obligations.OffsetJumpAndGlyphAddressAreNotReduced := fun nnn x s =>
  ⟨⟨_, exec_opBnnn nnn s, rfl, offsetTarget_toNat_eq_add s nnn⟩,
    ⟨_, exec_opFx29 x s, rfl, advancedBy2_advance _, glyphAddr_toNat (s.getV x)⟩⟩

end Sys2Proof.Machine
end

section
/-! SUPPORT. The skips on registers (spec/42_skip.md R130 to R133) as equations of `exec`, where a skip leaves PC, and
the value of a word of their format XNN. -/

namespace Sys2Proof.Machine

theorem exec_op3xnn (x : Reg) (nn : Byte) (s : State) :
    exec (.op3xnn x nn) s = .next (s.skipIf (s.getV x == nn)) := rfl

theorem exec_op4xnn (x : Reg) (nn : Byte) (s : State) :
    exec (.op4xnn x nn) s = .next (s.skipIf (s.getV x != nn)) := rfl

/-- The low nibble is not examined (R84). -/
theorem exec_op5xy0 (x y : Reg) (n : Nibble) (s : State) :
    exec (.op5xy0 x y n) s = .next (s.skipIf (s.getV x == s.getV y)) := rfl

/-- The low nibble is not examined (R84). -/
theorem exec_op9xy0 (x y : Reg) (n : Nibble) (s : State) :
    exec (.op9xy0 x y n) s = .next (s.skipIf (s.getV x != s.getV y)) := rfl

/-- A skip writes PC only (R134). -/
theorem skipIf_only (s : State) (c : Bool) : s.skipIf c = { s with pc := (s.skipIf c).pc } := rfl

/-- The skip advance under any condition that its Boolean decides (R134). -/
theorem skippedIf_skipIf {c : Bool} {P : Prop} [Decidable P] (s : State) (h : c = true ↔ P) :
    SkippedIf P s (s.skipIf c) := by
  have hpc : SkippedIf (c = true) s (s.skipIf c) := skippedIf_of_pc (skipIf_pc s c)
  rwa [SkippedIf, if_congr h rfl rfl] at hpc

/-- `encodeXNN_toNat` with the factor of `x` in front, as the statements write it. -/
theorem encodeXNN_toNat_hex (top : Nibble) (x : Reg) (nn : Byte) :
    (encodeXNN top x nn).toNat = top.toNat * 0x1000 + 0x100 * x.val + nn.toNat := by
  rw [encodeXNN_toNat, Nat.mul_comm x.val]

end Sys2Proof.Machine
end

section
/-! PROOFS. The statements on the skips on registers (spec/42_skip.md), settled from the lemmas above. -/

namespace Sys2Proof.Machine

/-- Settles O13: each execution is a skip advance whose Boolean decides the condition. -/
theorem immediateSkipsMovePcByFourOrTwo : Obligations.ImmediateSkipsMovePcByFourOrTwo := fun x nn s =>
  ⟨encodeXNN_toNat_hex 0x3 x nn, encodeXNN_toNat_hex 0x4 x nn,
    ⟨_, exec_op3xnn x nn s, skipIf_only s _, skippedIf_skipIf s beq_iff_eq⟩,
    ⟨_, exec_op4xnn x nn s, skipIf_only s _, skippedIf_skipIf s bne_iff_ne⟩⟩

/-- Settles O14: as for the immediate skips, and the low nibble is in neither execution. -/
theorem registerSkipsMovePcByFourOrTwo : Obligations.RegisterSkipsMovePcByFourOrTwo := fun x y n s =>
  ⟨⟨_, exec_op5xy0 x y n s, skipIf_only s _, skippedIf_skipIf s beq_iff_eq⟩,
    ⟨_, exec_op9xy0 x y n s, skipIf_only s _, skippedIf_skipIf s bne_iff_ne⟩⟩

end Sys2Proof.Machine
end

section
/-! SUPPORT. Load, arithmetic, logic, shift and random (spec/43_alu.md R140 to R155) as equations of `exec`; the flags
as propositions and the shifts as shifts of bit vectors; and what an instruction does that writes one register, or a
result and a flag, and advances. -/

namespace Sys2Proof.Machine

/-! ### One equation per instruction -/

theorem exec_op6xnn (x : Reg) (nn : Byte) (s : State) : exec (.op6xnn x nn) s = .next (s.setV x nn).advance := rfl

theorem exec_op7xnn (x : Reg) (nn : Byte) (s : State) :
    exec (.op7xnn x nn) s = .next (s.setV x (addByte (s.getV x) nn)).advance := rfl

theorem exec_op8xy0 (x y : Reg) (s : State) : exec (.op8xy0 x y) s = .next (s.setV x (s.getV y)).advance := rfl

theorem exec_op8xy1 (x y : Reg) (s : State) :
    exec (.op8xy1 x y) s = .next (s.setV x (s.getV x ||| s.getV y)).advance := rfl

theorem exec_op8xy2 (x y : Reg) (s : State) :
    exec (.op8xy2 x y) s = .next (s.setV x (s.getV x &&& s.getV y)).advance := rfl

theorem exec_op8xy3 (x y : Reg) (s : State) :
    exec (.op8xy3 x y) s = .next (s.setV x (s.getV x ^^^ s.getV y)).advance := rfl

theorem exec_op8xy4 (x y : Reg) (s : State) :
    exec (.op8xy4 x y) s = .next
      (s.writeResultAndFlag x (addByte (s.getV x) (s.getV y)) (carryFlag (s.getV x) (s.getV y))).advance := rfl

theorem exec_op8xy5 (x y : Reg) (s : State) :
    exec (.op8xy5 x y) s = .next
      (s.writeResultAndFlag x (subByte (s.getV x) (s.getV y)) (greaterFlag (s.getV x) (s.getV y))).advance := rfl

theorem exec_op8xy6 (x y : Reg) (s : State) :
    exec (.op8xy6 x y) s = .next (s.writeResultAndFlag x (shrByte (s.getV x)) (lowBitFlag (s.getV x))).advance := rfl

theorem exec_op8xy7 (x y : Reg) (s : State) :
    exec (.op8xy7 x y) s = .next
      (s.writeResultAndFlag x (subByte (s.getV y) (s.getV x)) (greaterFlag (s.getV y) (s.getV x))).advance := rfl

theorem exec_op8xyE (x y : Reg) (s : State) :
    exec (.op8xyE x y) s = .next (s.writeResultAndFlag x (shlByte (s.getV x)) (highBitFlag (s.getV x))).advance := rfl

/-! ### The word of a register copy -/

/-- `encodeXYN_toNat` for function code 0, with the factors in front, as the statements write it. -/
theorem encodeXYN_zero_toNat_hex (top : Nibble) (x y : Reg) :
    (encodeXYN top x y 0).toNat = top.toNat * 0x1000 + 0x100 * x.val + 0x10 * y.val := by
  rw [encodeXYN_toNat, Nat.mul_comm x.val, Nat.mul_comm y.val]
  exact Nat.add_zero _

/-! ### The flags and the shifts -/

theorem carryFlag_iff (a b : Byte) : carryFlag a b = true ↔ 255 < a.toNat + b.toNat := decide_eq_true_iff

theorem greaterFlag_iff (a b : Byte) : greaterFlag a b = true ↔ a.toNat > b.toNat := decide_eq_true_iff

theorem lowBitFlag_eq (a : Byte) : lowBitFlag a = a.getLsbD 0 := (Nat.testBit_zero a.toNat).symm

theorem highBitFlag_eq (a : Byte) : highBitFlag a = a.getLsbD 7 :=
  a.msb_eq_decide.symm.trans a.msb_eq_getLsbD_last

theorem shrByte_eq (a : Byte) : shrByte a = a >>> 1 :=
  BitVec.eq_of_toNat_eq (by rw [toNat_shrByte, BitVec.toNat_ushiftRight, Nat.shiftRight_eq_div_pow, pow_one])

theorem shlByte_eq (a : Byte) : shlByte a = a <<< 1 :=
  BitVec.eq_of_toNat_eq (by rw [toNat_shlByte, BitVec.toNat_shiftLeft, Nat.shiftLeft_eq, pow_one])

/-- The byte VF receives, under any condition that the flag decides (R21). -/
theorem toNat_flagByte_of_iff {f : Bool} {P : Prop} [Decidable P] (h : f = true ↔ P) :
    (flagByte f).toNat = if P then 1 else 0 := by
  rw [toNat_flagByte, if_congr h rfl rfl]

/-! ### What is written, in the terms of the statements -/

theorem wroteV_setV (s : State) (x : Reg) (b : Byte) : WroteV s (s.setV x b) x b.toNat := fun k => by
  rw [getV_setV, apply_ite BitVec.toNat]

theorem wroteResultAndFlag_writeResultAndFlag (s : State) (x : Reg) (r : Byte) (f : Bool) :
    WroteResultAndFlag s (s.writeResultAndFlag x r f) x r.toNat (flagByte f).toNat := fun k => by
  rw [getV_writeResultAndFlag]
  simp only [apply_ite BitVec.toNat]

/-- An instruction that writes `V[x]` and advances: its frame, and the register file in numbers. -/
theorem wroteV_of_exec_eq {i : Instr} {s : State} {x : Reg} {b : Byte} {r : Nat}
    (h : exec i s = .next (s.setV x b).advance) (hr : b.toNat = r) :
    ∃ t, exec i s = .next t ∧ t = { s with v := t.v, pc := t.pc } ∧ AdvancedBy2 s t ∧ WroteV s t x r :=
  ⟨_, h, rfl, advancedBy2_advance (s.setV x b), hr ▸ wroteV_setV s x b⟩

/-- An instruction that writes `V[x]` and advances: its frame, and the register file with the result bit by bit. -/
theorem wroteBits_of_exec_eq {i : Instr} {s : State} {x : Reg} {b : Byte} {p : Nat → Bool}
    (h : exec i s = .next (s.setV x b).advance) (hp : ∀ j, b.getLsbD j = p j) :
    ∃ t, exec i s = .next t ∧ t = { s with v := t.v, pc := t.pc } ∧ AdvancedBy2 s t ∧
      (∀ j, (t.getV x).getLsbD j = p j) ∧ ∀ k, k ≠ x → t.getV k = s.getV k :=
  ⟨_, h, rfl, advancedBy2_advance (s.setV x b), fun j => by rw [getV_advance, getV_setV_same, hp],
    fun _ hk => getV_setV_ne (beq_false_of_ne hk) b⟩

/-- An instruction that writes a result and a flag and advances (R155): its frame, and the register file. -/
theorem wroteResultAndFlag_of_exec_eq {i : Instr} {s : State} {x : Reg} {b : Byte} {f : Bool} {r : Nat} {P : Prop}
    [Decidable P] (h : exec i s = .next (s.writeResultAndFlag x b f).advance) (hr : b.toNat = r) (hf : f = true ↔ P) :
    ∃ t, exec i s = .next t ∧ t = { s with v := t.v, pc := t.pc } ∧ AdvancedBy2 s t ∧
      WroteResultAndFlag s t x r (if P then 1 else 0) := by
  refine ⟨_, h, ?_, advancedBy2_of_pc ?_, ?_⟩
  · rw [State.advance, writeResultAndFlag_only]
  · rw [advance_pc, writeResultAndFlag_only]
  · rw [← hr, ← toNat_flagByte_of_iff hf]
    exact wroteResultAndFlag_writeResultAndFlag s x b f

/-! ### The random byte (R153) -/

theorem drawByte_of_random {s : State} {b : Byte} {rest : List Byte} (h : s.answers.random = b :: rest) :
    s.drawByte.1 = b := by
  rw [State.drawByte, h]

theorem getV_drawByte (s : State) (k : Reg) : s.drawByte.2.getV k = s.getV k :=
  getV_congr (by rw [drawByte_only]) k

theorem drawByte_setV_advance_only (s : State) (x : Reg) (b : Byte) :
    (s.drawByte.2.setV x b).advance =
      { s with
        v := (s.drawByte.2.setV x b).advance.v
        pc := (s.drawByte.2.setV x b).advance.pc
        answers := (s.drawByte.2.setV x b).advance.answers
        draws := (s.drawByte.2.setV x b).advance.draws } := by
  simp only [State.advance, State.setV]
  rw [drawByte_only]

theorem wroteV_drawByte_setV (s : State) (x : Reg) (b : Byte) : WroteV s (s.drawByte.2.setV x b) x b.toNat := by
  intro k
  rw [wroteV_setV, getV_drawByte]

/-- A bit that is clear in the mask is clear in the masked byte (R151). -/
theorem getLsbD_and_of_clear {b mask : Byte} {j : Nat} (h : mask.getLsbD j = false) :
    (b &&& mask).getLsbD j = false := by
  rw [BitVec.getLsbD_and, h, Bool.and_false]

end Sys2Proof.Machine
end

section
/-! PROOFS. The statements on load, arithmetic, logic, shift and random (spec/43_alu.md), settled from the lemmas
above. -/

namespace Sys2Proof.Machine

/-- Settles O15: both are one write of a register. -/
theorem loadsWriteOneRegister : Obligations.LoadsWriteOneRegister := fun x y nn s =>
  ⟨encodeXNN_toNat_hex 0x6 x nn, encodeXYN_zero_toNat_hex 0x8 x y,
    wroteV_of_exec_eq (exec_op6xnn x nn s) rfl, wroteV_of_exec_eq (exec_op8xy0 x y s) rfl⟩

/-- Settles O16: each is one write of a register, the sum as a number and the logic results by their bits. -/
theorem logicAndAddImmediateWriteOneRegister : Obligations.LogicAndAddImmediateWriteOneRegister := fun x y nn s =>
  ⟨wroteV_of_exec_eq (exec_op7xnn x nn s) (toNat_addByte _ _),
    wroteBits_of_exec_eq (exec_op8xy1 x y s) fun _ => BitVec.getLsbD_or,
    wroteBits_of_exec_eq (exec_op8xy2 x y s) fun _ => BitVec.getLsbD_and,
    wroteBits_of_exec_eq (exec_op8xy3 x y s) fun _ => BitVec.getLsbD_xor⟩

/-- Settles O17, by the numbers that the sum and the carry stand for. -/
theorem addWritesSumAndCarry : Obligations.AddWritesSumAndCarry := fun x y s =>
  wroteResultAndFlag_of_exec_eq (exec_op8xy4 x y s) (toNat_addByte _ _) (carryFlag_iff _ _)

/-- Settles O18: the two subtractions are one, with the operands exchanged. -/
theorem subtractsWriteDifferenceAndStrictFlag : Obligations.SubtractsWriteDifferenceAndStrictFlag := fun x y s =>
  ⟨wroteResultAndFlag_of_exec_eq (exec_op8xy5 x y s) (toNat_subByte _ _) (greaterFlag_iff _ _),
    wroteResultAndFlag_of_exec_eq (exec_op8xy7 x y s) (toNat_subByte _ _) (greaterFlag_iff _ _)⟩

/-- Settles O19: the results are shifts of the bit vector, the flags its outermost bits, and `y` is in neither
execution. -/
theorem shiftsMoveOneBitAndFlagIt : Obligations.ShiftsMoveOneBitAndFlagIt := fun x y s =>
  ⟨wroteResultAndFlag_of_exec_eq (exec_op8xy6 x y s) (congrArg BitVec.toNat (shrByte_eq _)) (by rw [lowBitFlag_eq]),
    wroteResultAndFlag_of_exec_eq (exec_op8xyE x y s) (congrArg BitVec.toNat (shlByte_eq _)) (by rw [highBitFlag_eq])⟩

/-- Settles O20: the byte is the one that is drawn, and the draw changes no register. -/
theorem randomByteIsMasked : Obligations.RandomByteIsMasked := by
  intro x nn s
  refine ⟨s.drawByte.1, _, exec_opCxnn x nn s, fun _ _ => drawByte_of_random, drawByte_setV_advance_only s x _,
    advancedBy2_of_pc ?_, wroteV_drawByte_setV s x _, fun _ hclear => ?_⟩
  · rw [advance_pc, setV_pc, drawByte_only]
  · rw [getV_advance, getV_setV_same, getLsbD_and_of_clear hclear]

end Sys2Proof.Machine
end

section
/-! SUPPORT. The index register and memory transfer (spec/44_index_memory.md R170 to R176) as equations of `exec`, and
what a transfer does at the address of each of its bytes: the stored bytes are at `I + k`, and the loaded ones come
from there. -/

namespace Sys2Proof.Machine

/-! ### The index register (R170, R171) -/

theorem exec_opAnnn (nnn : Addr12) (s : State) : exec (.opAnnn nnn) s = .next (s.setI (immAddr nnn)).advance := rfl

theorem exec_opFx1E (x : Reg) (s : State) :
    exec (.opFx1E x) s = .next (s.setI (s.i + byteToWord (s.getV x))).advance := rfl

theorem add_byteToWord_toNat (w : Word) (b : Byte) : (w + byteToWord b).toNat = (w.toNat + b.toNat) % 65536 := by
  rw [BitVec.toNat_add, byteToWord_toNat]

theorem setI_advance_only (s : State) (w : Word) :
    (s.setI w).advance = { s with i := (s.setI w).advance.i, pc := (s.setI w).advance.pc } := rfl

/-! ### Stores from I on (R62, R174, R175) -/

theorem exec_opFx33 (x : Reg) (s : State) :
    exec (.opFx33 x) s = .next (s.memWriteBytes s.baseAddr (bcdDigits (s.getV x))).advance := rfl

theorem exec_opFx55 (x : Reg) (s : State) :
    exec (.opFx55 x) s = .next (s.memWriteBytes s.baseAddr (s.regsUpTo x)).advance := rfl

@[simp] theorem readByte_advance (s : State) (a : Nat) : s.advance.readByte a = s.readByte a := rfl

/-- A store instruction changes memory and PC only. -/
theorem memWriteBytes_advance_only (s : State) (a : Nat) (bs : List Byte) :
    (s.memWriteBytes a bs).advance =
      { s with mem := (s.memWriteBytes a bs).advance.mem, pc := (s.memWriteBytes a bs).advance.pc } := by
  unfold State.advance
  rw [memWriteBytes_only]

theorem advancedBy2_memWriteBytes_advance (s : State) (a : Nat) (bs : List Byte) :
    AdvancedBy2 s (s.memWriteBytes a bs).advance :=
  advancedBy2_of_pc (by rw [advance_pc, memWriteBytes_only])

/-- The addresses of R66 are `I + k`, one for each stored byte. -/
theorem storesTo_iff_effAddr (i : Instr) (s : State) (a : Nat) :
    storesTo i s a = true ↔ ∃ k < (storedBytes i s).length, a = s.effAddr k := by
  rw [storesTo_iff, State.baseAddr]
  unfold State.effAddr
  constructor
  · exact fun ⟨hlo, hhi⟩ => ⟨_, hhi, by omega⟩
  · rintro ⟨k, hk, rfl⟩
    omega

/-- Each stored byte is read back at its own address, unless that is outside memory. -/
theorem readByte_memWriteBytes_effAddr {s : State} {bs : List Byte} {k : Nat} {b : Byte}
    (hwf : Memory.wf s.config.glyph s.mem) (hb : bs[k]? = some b) :
    (s.memWriteBytes s.baseAddr bs).readByte (s.effAddr k) = if s.effAddr k < 4096 then some b else none := by
  obtain ⟨hk, -⟩ := List.getElem?_eq_some_iff.1 hb
  by_cases hin : s.effAddr k < 4096
  · have hoff : s.effAddr k - s.baseAddr = k := Nat.add_sub_cancel_left ..
    have hle : s.baseAddr ≤ s.effAddr k := Nat.le_add_right ..
    rw [readByte_memWriteBytes _ _ _ hwf, hoff, if_pos ⟨hle, hin, hk⟩, if_pos hin, hb]
  · rw [readByte_eq, if_neg hin, if_neg hin]

/-- A stored decimal digit is read back as that digit (R174). -/
theorem memRead_toNat_of_digit {s : State} {bs : List Byte} {k n : Nat} (hwf : Memory.wf s.config.glyph s.mem)
    (hin : s.effAddr k < 4096) (hn : n < 10) (hb : bs[k]? = some (BitVec.ofNat 8 n)) :
    ((s.memWriteBytes s.baseAddr bs).advance.memRead (s.effAddr k)).toNat = n := by
  have hbyte : n < 2 ^ 8 := by omega
  rw [State.memRead, readByte_advance, readByte_memWriteBytes_effAddr hwf hb, if_pos hin, Option.getD_some,
    BitVec.toNat_ofNat, Nat.mod_eq_of_lt hbyte]

/-! ### Loads from I on (R61, R176) -/

/-- A load instruction changes registers and PC only. -/
theorem loadRegs_advance_only (s : State) (x : Reg) (a : Nat) :
    (s.loadRegs x a).advance = { s with v := (s.loadRegs x a).advance.v, pc := (s.loadRegs x a).advance.pc } := rfl

/-- The byte for `V[k]` comes from `I + k`, an absent one as 0. -/
theorem memRead_baseAddr_add (s : State) (k : Nat) :
    s.memRead (s.baseAddr + k) = (s.readByte (s.effAddr k)).getD 0 := rfl

end Sys2Proof.Machine
end

section
/-! PROOFS. The statements on the index register and memory transfer (spec/44_index_memory.md), settled from the lemmas
above. -/

namespace Sys2Proof.Machine

/-- Settles O21: both are one write of I, and `Fx1E` writes the sum as 16-bit addition forms it. -/
theorem indexRegisterLoadAndAdd : Obligations.IndexRegisterLoadAndAdd := by
  intro nnn x s
  refine ⟨encodeNNN_toNat 0xA nnn, ?_,
    ⟨_, exec_opAnnn nnn s, setI_advance_only s _, advancedBy2_advance _, immAddr_toNat nnn⟩,
    ⟨_, exec_opFx1E x s, setI_advance_only s _, advancedBy2_advance _, add_byteToWord_toNat s.i (s.getV x)⟩⟩
  calc (encode (.opFx1E x)).toNat
      = 0xF000 + 0x100 * x.val + 0x1E := encodeXNN_toNat_hex 0xF x 0x1E
    _ = 0xF01E + 0x100 * x.val := by omega

/-- Settles O22: each digit is read back at its own address, and the other addresses are none of the stores'. -/
theorem bcdStoresThreeDigits : Obligations.BcdStoresThreeDigits := by
  intro x s hwf
  have hexec := exec_opFx33 x s
  have hframe := fun a => onlyStoresWriteMemory _ _ _ a hwf hexec
  have hlt := (s.getV x).isLt
  refine ⟨_, hexec, memWriteBytes_advance_only .., advancedBy2_memWriteBytes_advance .., fun a ha => ?_, hframe⟩
  split_ifs with h0 h1 h2
  · subst h0
    exact memRead_toNat_of_digit hwf ha (by omega) rfl
  · subst h1
    exact memRead_toNat_of_digit hwf ha (by omega) rfl
  · subst h2
    exact memRead_toNat_of_digit hwf ha (by omega) rfl
  · have hout : storesTo (.opFx33 x) s a = false := by
      rw [← Bool.not_eq_true, storesTo_iff_effAddr]
      rintro ⟨k, hk, rfl⟩
      match k, hk with
      | 0, _ => exact h0 rfl
      | 1, _ => exact h1 rfl
      | 2, _ => exact h2 rfl
    rw [State.memRead, hframe a hout, State.memRead]

/-- Settles O23: `V[k]` is the byte at offset `k` of the stored ones. -/
theorem storeRegistersWritesAscendingBytes : Obligations.StoreRegistersWritesAscendingBytes := by
  intro x s hwf
  have hexec := exec_opFx55 x s
  refine ⟨_, hexec, memWriteBytes_advance_only .., advancedBy2_memWriteBytes_advance .., fun k hk => ?_,
    fun a ha => onlyStoresWriteMemory _ _ _ a hwf hexec ?_⟩
  · exact readByte_memWriteBytes_effAddr hwf (regsUpTo_getElem? s x k hk)
  · rw [← Bool.not_eq_true, storesTo_iff_effAddr]
    rintro ⟨k, hk, heq⟩
    have hkx : k < x.val + 1 := hk.trans_eq (regsUpTo_length s x)
    exact ha ⟨k, hkx.trans_le x.isLt⟩ (Nat.lt_succ_iff.1 hkx) heq

/-- Settles O24: a load leaves memory alone, and reads `V[k]` at `I + k`. -/
theorem loadRegistersReadsAscendingBytes : Obligations.LoadRegistersReadsAscendingBytes := by
  intro x s
  refine ⟨_, exec_opFx65 x s, loadRegs_advance_only s x _, advancedBy2_advance _, fun _ => readByte_congr rfl rfl _,
    fun k => ?_⟩
  rw [getV_advance, getV_loadRegs, memRead_baseAddr_add]

end Sys2Proof.Machine
end

section
/-! SUPPORT. Drawing on the reference Display as a sequence of pixel flips (spec/45_timer_key_display.md R204): which
pixels a sprite flips and in what order, when it flips none of them twice, and what a sequence of flips leaves on. -/

namespace Sys2Proof.Machine

/-! ### A sequence of flips -/

/-- Flip one pixel, and note a collision if it was on: `drawPixel` on the index of the pixel. -/
def flipPixel (acc : Bool × List Nat) (p : Nat) : Bool × List Nat :=
  (acc.1 || acc.2.contains p, togglePixel p acc.2)

theorem foldl_flipPixel_sorted (l : List Nat) {acc : Bool × List Nat} (h : acc.2.Pairwise (· < ·)) :
    (l.foldl flipPixel acc).2.Pairwise (· < ·) := by
  induction l generalizing acc with
  | nil => exact h
  | cons p l ih => exact ih (togglePixel_sorted h)

/-- A pixel is as it was exactly when it has been flipped an even number of times. -/
theorem mem_foldl_flipPixel {l : List Nat} {q : Nat} {acc : Bool × List Nat} (h : acc.2.Pairwise (· < ·)) :
    q ∈ (l.foldl flipPixel acc).2 ↔ (q ∈ acc.2 ↔ Even (l.count q)) := by
  induction l generalizing acc with
  | nil => simp
  | cons p l ih =>
    rw [List.foldl_cons, ih (acc := flipPixel acc p) (togglePixel_sorted h), flipPixel, mem_togglePixel h,
      List.count_cons]
    by_cases hq : q = p
    · subst hq
      simp only [if_true, beq_self_eq_true, Nat.even_add_one]
      tauto
    · rw [if_neg hq, if_neg (by simpa using Ne.symm hq), Nat.add_zero]

/-- Flipping the same pixels once more restores what was on. -/
theorem foldl_flipPixel_twice (l : List Nat) {b b' : Bool} {ps : List Nat} (h : ps.Pairwise (· < ·)) :
    (l.foldl flipPixel (b', (l.foldl flipPixel (b, ps)).2)).2 = ps := by
  have honce : (l.foldl flipPixel (b, ps)).2.Pairwise (· < ·) := foldl_flipPixel_sorted l h
  refine List.Pairwise.eq_of_mem_iff (foldl_flipPixel_sorted l honce) h fun q => ?_
  rw [mem_foldl_flipPixel (acc := (b', _)) honce, mem_foldl_flipPixel h]
  tauto

/-- Among pixels that are each flipped once, a collision is a pixel that was on at the start. -/
theorem collision_foldl_flipPixel {l : List Nat} (hl : l.Nodup) {acc : Bool × List Nat}
    (h : acc.2.Pairwise (· < ·)) :
    (l.foldl flipPixel acc).1 = true ↔ acc.1 = true ∨ ∃ q ∈ acc.2, q ∈ l := by
  induction l generalizing acc with
  | nil => simp
  | cons p l ih =>
    obtain ⟨hp, hl⟩ := List.nodup_cons.1 hl
    have hlater : (∃ q ∈ togglePixel p acc.2, q ∈ l) ↔ ∃ q ∈ acc.2, q ∈ l := by
      refine exists_congr fun q => and_congr_left fun hq => ?_
      rw [mem_togglePixel h, if_neg (ne_of_mem_of_not_mem hq hp)]
    rw [List.foldl_cons, ih hl (acc := flipPixel acc p) (togglePixel_sorted h), flipPixel, hlater, Bool.or_eq_true,
      List.contains_iff_mem]
    simp only [List.mem_cons, and_or_left, exists_or, exists_eq_right, or_assoc]

/-! ### The pixels of a sprite, in the order in which they are drawn -/

/-- The pixels under the set bits of one sprite row, the first bit at column `x0 + j`. -/
def bitPixels (c : Config) (x0 row : Nat) : Nat → List Bool → List Nat
  | _, [] => []
  | j, b :: bits => (if b then [pixelIndex c (x0 + j) row] else []) ++ bitPixels c x0 row (j + 1) bits

/-- The pixels under the set bits of a sprite, its first row at `row`. -/
def spritePixels (c : Config) (x0 : Nat) : Nat → List Byte → List Nat
  | _, [] => []
  | row, b :: rows => bitPixels c x0 row 0 (rowBits b) ++ spritePixels c x0 (row + 1) rows

theorem drawBits_eq_foldl (c : Config) (x0 row : Nat) (bits : List Bool) (j : Nat) (acc : Bool × List Nat) :
    drawBits c x0 row j bits acc = (bitPixels c x0 row j bits).foldl flipPixel acc := by
  induction bits generalizing j acc with
  | nil => rfl
  | cons b bits ih =>
    rw [drawBits, ih, bitPixels, List.foldl_append]
    cases b <;> rfl

theorem drawRows_eq_foldl (c : Config) (x0 : Nat) (rows : List Byte) (row : Nat) (acc : Bool × List Nat) :
    drawRows c x0 row rows acc = (spritePixels c x0 row rows).foldl flipPixel acc := by
  induction rows generalizing row acc with
  | nil => rfl
  | cons b rows ih => rw [drawRows, ih, drawBits_eq_foldl, spritePixels, List.foldl_append]

theorem mem_bitPixels {c : Config} {x0 row q : Nat} {bits : List Bool} {j : Nat} :
    q ∈ bitPixels c x0 row j bits ↔ ∃ k, bits[k]? = some true ∧ q = pixelIndex c (x0 + (j + k)) row := by
  induction bits generalizing j with
  | nil => simp [bitPixels]
  | cons b bits ih =>
    rw [bitPixels, List.mem_append, ih]
    refine Iff.trans ?_ Nat.or_exists_add_one
    refine or_congr (by cases b <;> simp) (exists_congr fun k => ?_)
    rw [List.getElem?_cons_succ, Nat.add_right_comm, ← Nat.add_assoc j]

/-- The bit at place `j` from the left is bit `7 - j` (R204). -/
theorem rowBits_getElem? (b : Byte) (j : Nat) : (rowBits b)[j]? = some true ↔ j < 8 ∧ b.getLsbD (7 - j) = true := by
  match j with
  | 0 | 1 | 2 | 3 | 4 | 5 | 6 | 7 => simp [rowBits]
  | j + 8 => simp [rowBits]

theorem mem_spritePixels {c : Config} {x0 row q : Nat} {rows : List Byte} :
    q ∈ spritePixels c x0 row rows ↔ CoveredBySprite c x0 row rows q := by
  unfold CoveredBySprite
  induction rows generalizing row with
  | nil => simp [spritePixels]
  | cons b rows ih =>
    rw [spritePixels, List.mem_append, mem_bitPixels, ih]
    refine Iff.trans ?_ Nat.or_exists_add_one
    refine or_congr (exists_congr fun j => ?_) (exists_congr fun r => ?_)
    · simp [rowBits_getElem?, pixelIndex, and_assoc]
    · rw [List.getElem?_cons_succ, Nat.add_right_comm, ← Nat.add_assoc row]

/-! ### No pixel is drawn twice where the sprite fits (R204) -/

/-- Two places less than a whole turn apart do not wrap to the same one. -/
theorem eq_of_add_mod_eq {a m j k : Nat} (h : (a + j) % m = (a + k) % m) (hj : j < m) (hk : k < m) : j = k :=
  (Nat.ModEq.add_left_cancel' a h).eq_of_lt_of_lt hj hk

theorem pixelIndex_inj {c : Config} {col row col' row' : Nat} (hw : 0 < c.displayW)
    (h : pixelIndex c col row = pixelIndex c col' row') :
    col % c.displayW = col' % c.displayW ∧ row % c.displayH = row' % c.displayH := by
  unfold pixelIndex at h
  have hcol := congrArg (· % c.displayW) h
  have hrow := congrArg (· / c.displayW) h
  simp only [Nat.mod_lt _ hw, Nat.mul_comm _ c.displayW, Nat.mul_add_div hw,
    Nat.div_eq_of_lt, Nat.mul_add_mod, Nat.mod_mod, Nat.add_zero] at hcol hrow
  exact ⟨hcol, hrow⟩

theorem bitPixels_nodup {c : Config} (hw : 8 ≤ c.displayW) (x0 row : Nat) {bits : List Bool} {j : Nat}
    (hfit : j + bits.length ≤ 8) : (bitPixels c x0 row j bits).Nodup := by
  induction bits generalizing j with
  | nil => exact .nil
  | cons b bits ih =>
    rw [List.length_cons] at hfit
    have hrest : (bitPixels c x0 row (j + 1) bits).Nodup := ih (by omega)
    cases b
    · exact hrest
    · refine List.nodup_cons.2 ⟨fun hmem => ?_, hrest⟩
      obtain ⟨k, hk, heq⟩ := mem_bitPixels.1 hmem
      obtain ⟨hlen, -⟩ := List.getElem?_eq_some_iff.1 hk
      obtain ⟨hcol, -⟩ := pixelIndex_inj (by omega) heq
      have := eq_of_add_mod_eq hcol (by omega) (by omega)
      omega

theorem spritePixels_nodup {c : Config} (hw : 8 ≤ c.displayW) (x0 : Nat) {rows : List Byte} {row : Nat}
    (hfit : rows.length ≤ c.displayH) : (spritePixels c x0 row rows).Nodup := by
  induction rows generalizing row with
  | nil => exact .nil
  | cons b rows ih =>
    rw [List.length_cons] at hfit
    refine List.nodup_append.2 ⟨bitPixels_nodup hw x0 row (Nat.le_refl 8), ih (by omega), ?_⟩
    rintro p hp q hq rfl
    obtain ⟨j, -, hj⟩ := mem_bitPixels.1 hp
    obtain ⟨r, j', _, hr, -, -, heq⟩ := mem_spritePixels.1 hq
    obtain ⟨hlen, -⟩ := List.getElem?_eq_some_iff.1 hr
    obtain ⟨-, hrow⟩ := pixelIndex_inj (by omega) (hj.symm.trans heq)
    rw [Nat.add_assoc row] at hrow
    have := eq_of_add_mod_eq (j := 0) hrow (by omega) (by omega)
    omega

end Sys2Proof.Machine
end

section
/-! SUPPORT. Timer, key and display instructions (spec/45_timer_key_display.md R190 to R203) as equations of `exec`;
what the Input and the Display answer, in each configuration; and the step of a driver whose `Fx0A` waits in vain. -/

namespace Sys2Proof.Machine

/-! ### The timer registers (R190 to R192) -/

theorem exec_opFx07 (x : Reg) (s : State) : exec (.opFx07 x) s = .next (s.setV x s.dt).advance := rfl

theorem exec_opFx15 (x : Reg) (s : State) : exec (.opFx15 x) s = .next (s.setDT (s.getV x)).advance := rfl

theorem exec_opFx18 (x : Reg) (s : State) : exec (.opFx18 x) s = .next (s.setST (s.getV x)).advance := rfl

theorem setDT_advance_only (s : State) (b : Byte) :
    (s.setDT b).advance = { s with dt := (s.setDT b).advance.dt, pc := (s.setDT b).advance.pc } := rfl

theorem setST_advance_only (s : State) (b : Byte) :
    (s.setST b).advance = { s with st := (s.setST b).advance.st, pc := (s.setST b).advance.pc } := rfl

/-- A word of format X as the match value of its row plus the field `x` (R82, R85). -/
theorem encodeXNN_toNat_match (top : Nibble) (x : Reg) (nn : Byte) :
    (encodeXNN top x nn).toNat = top.toNat * 0x1000 + nn.toNat + 0x100 * x.val := by
  rw [encodeXNN_toNat_hex]
  omega

/-! ### The key test (R193, R194, R202) -/

theorem answerKeyDown_of_keysDown {s : State} {b : Bool} {rest : List Bool} (h : s.answers.keysDown = b :: rest)
    (key : Byte) : (s.answerKeyDown key).1 = b := by
  rw [State.answerKeyDown, h]

/-- With an Input attached the key test is one recorded question to it. -/
theorem keyPressed_of_hasInput {s : State} (h : s.config.hasInput = true) (key : Byte) :
    s.keyPressed key = ((s.answerKeyDown key).1,
      (s.answerKeyDown key).2.record (.isKeyPressed key (s.answerKeyDown key).1)) := by
  rw [State.keyPressed, if_pos h]

theorem keyPressed_calls_of_hasInput {s : State} (h : s.config.hasInput = true) (key : Byte) :
    (s.keyPressed key).2.calls = .isKeyPressed key (s.keyPressed key).1 :: s.calls := by
  rw [keyPressed_of_hasInput h, record_calls, answerKeyDown_only]

/-- A skip on a key test changes PC and what the question to the Input changes. -/
theorem keyPressed_skipIf_only (s : State) (key : Byte) (c : Bool) :
    OnlyAnswers { s with pc := ((s.keyPressed key).2.skipIf c).pc } ((s.keyPressed key).2.skipIf c) := by
  unfold State.skipIf
  rw [keyPressed_only]

theorem skippedIf_keyPressed_skipIf {c : Bool} {P : Prop} [Decidable P] (s : State) (key : Byte) (h : c = true ↔ P) :
    SkippedIf P s ((s.keyPressed key).2.skipIf c) := by
  have hpc : (s.keyPressed key).2.pc = s.pc := by rw [keyPressed_only]
  rw [SkippedIf, ← hpc]
  exact skippedIf_skipIf _ h

/-! ### The wait for a key (R195, R203) -/

theorem keyToByte_toNat (k : Key) : (keyToByte k).toNat = k.val :=
  Nat.mod_eq_of_lt (k.isLt.trans (by decide))

theorem answerKey_of_keys {s : State} {k : Option Key} {rest : List (Option Key)} (h : s.answers.keys = k :: rest) :
    s.answerKey.1 = k := by
  rw [State.answerKey, h]

theorem answerKey_record_only (s : State) (c : CollabCall) : OnlyAnswers s (s.answerKey.2.record c) := by
  unfold OnlyAnswers State.record
  rw [answerKey_only]

/-- What the completion of an `Fx0A` does, when only the question to the Input has changed the state before. -/
theorem finishKeyWait_completes {s u : State} (h : OnlyAnswers s u) (x : Reg) (b : Byte) :
    OnlyAnswers { s with v := (u.finishKeyWait x b).v, pc := (u.finishKeyWait x b).pc, waiting := false }
        (u.finishKeyWait x b) ∧
      AdvancedBy2 s (u.finishKeyWait x b) ∧ WroteV s (u.finishKeyWait x b) x b.toNat := by
  refine ⟨?_, advancedBy2_of_pc ?_, ?_⟩
  · unfold State.finishKeyWait State.advance State.setV
    rw [h]
  · rw [finishKeyWait_pc, h]
  · rw [h]
    exact wroteV_setV s x b

theorem exists_eq_opFx0A_of_isKeyWait {i : Instr} (h : isKeyWait i = true) : ∃ x, i = .opFx0A x := by
  cases i
  case opFx0A x => exact ⟨x, rfl⟩
  all_goals cases h

/-- An `Fx0A` that waits already and asks in vain once more changes nothing but the answer it took. -/
theorem exec_opFx0A_of_waiting (x : Reg) {s : State} (hin : s.config.hasInput = true) (hw : s.waiting = true)
    (hkey : s.answerKey.1 = none) :
    exec (.opFx0A x) s = .next { s with answers := s.answerKey.2.answers, draws := s.answerKey.2.draws } := by
  rcases askForKey_cases s x with ⟨k, hk, -⟩ | ⟨-, hhold⟩
  · simp [hkey] at hk
  · rw [exec_opFx0A, if_pos hin, hhold, answerKey_only, ← hw]

/-! ### The Display (R196 to R198, R200) -/

theorem exec_op00E0 (s : State) : exec .op00E0 s = .next s.displayClear.advance := rfl

/-- The clearing as one update, for each kind of Display. -/
theorem displayClear_eq (s : State) :
    s.displayClear = { s with
      calls := if s.config.hasDisplay then .clear :: s.calls else s.calls
      pixels := if s.config.display = .reference then [] else s.pixels } := by
  unfold State.displayClear Config.hasDisplay
  cases s.config.display <;> rfl

theorem answerCollision_of_collisions {s : State} {b : Bool} {rest : List Bool}
    (h : s.answers.collisions = b :: rest) : s.answerCollision.1 = b := by
  rw [State.answerCollision, h]

section
variable {s : State} (px py : Byte) (rows : List Byte) (n : Nibble)

theorem displayDraw_of_oracle (h : s.config.display = .oracle) :
    s.displayDraw px py rows n =
      (s.answerCollision.1, s.answerCollision.2.record (.drawSprite px py rows n s.answerCollision.1)) := by
  rw [State.displayDraw, h]

/-- The reference Display's answer and its pixels afterwards are what `drawRows` gives (R204). -/
theorem displayDraw_of_reference (h : s.config.display = .reference) :
    ((s.displayDraw px py rows n).1, (s.displayDraw px py rows n).2.pixels) =
      drawRows s.config px.toNat py.toNat rows (false, s.pixels) := by
  rw [State.displayDraw, h]

theorem displayDraw_calls (h : s.config.hasDisplay = true) :
    (s.displayDraw px py rows n).2.calls =
      .drawSprite px py rows n (s.displayDraw px py rows n).1 :: s.calls := by
  cases hd : s.config.display
  case absent => simp [Config.hasDisplay, hd] at h
  case oracle => rw [displayDraw_of_oracle px py rows n hd, record_calls, answerCollision_only]
  case reference => simp [State.displayDraw, hd]

theorem displayDraw_pixels_of_oracle (h : s.config.display = .oracle) :
    (s.displayDraw px py rows n).2.pixels = s.pixels := by
  rw [displayDraw_of_oracle px py rows n h, record_pixels, answerCollision_only]

theorem getV_displayDraw (k : Reg) : (s.displayDraw px py rows n).2.getV k = s.getV k :=
  getV_congr (by rw [displayDraw_only]) k

end

/-- Drawing a sprite changes VF and what the call on the Display changes. -/
theorem drawSprite_only (s : State) (x y : Reg) (n : Nibble) :
    s.drawSprite x y n = { s with
      v := (s.drawSprite x y n).v
      answers := (s.drawSprite x y n).answers
      draws := (s.drawSprite x y n).draws
      calls := (s.drawSprite x y n).calls
      pixels := (s.drawSprite x y n).pixels } := by
  rw [drawSprite_eq]
  unfold State.setV
  rw [displayDraw_only]

/-- VF receives the Display's answer, and every other register is as it was (R198). -/
theorem wroteV_drawSprite (s : State) (x y : Reg) (n : Nibble) :
    WroteV s (s.drawSprite x y n) regVF
      (if (s.displayDraw (s.getV x) (s.getV y) (s.memReadBytes s.baseAddr n.toNat) n).1 then 1 else 0) := by
  intro k
  rw [drawSprite_eq, wroteV_setV, getV_displayDraw, toNat_flagByte]

end Sys2Proof.Machine
end

section
/-! PROOFS. The statements on the timer, key and display instructions (spec/45_timer_key_display.md), settled from the
lemmas above. -/

namespace Sys2Proof.Machine

/-- Settles O27: with no Input the wait completes at once; with one, it does what the answer to its question says. -/
theorem keyWaitHoldsUntilAKeyArrives : Obligations.KeyWaitHoldsUntilAKeyArrives := by
  intro x s
  have hexec := exec_opFx0A x s
  cases hin : s.config.hasInput
  case false =>
    rw [hin, if_neg Bool.false_ne_true] at hexec
    refine ⟨some 0, _, hexec, nofun, fun _ => ⟨rfl, rfl⟩, nofun, ?_, nofun⟩
    rintro _ ⟨⟩
    exact finishKeyWait_completes rfl x 0
  case true =>
    rw [if_pos hin] at hexec
    refine ⟨s.answerKey.1, _, hexec, fun _ _ _ => answerKey_of_keys, nofun, ?_⟩
    rcases askForKey_cases s x with ⟨k, hkey, hdone⟩ | ⟨hnone, hhold⟩
    · rw [hkey, hdone]
      refine ⟨?_, ?_, nofun⟩
      · rintro _ _ ⟨⟩
        rw [finishKeyWait_calls, record_calls, answerKey_only]
      · rintro _ ⟨⟩
        rw [← keyToByte_toNat k]
        exact finishKeyWait_completes (answerKey_record_only s _) x _
    · rw [hnone, hhold]
      refine ⟨nofun, nofun, fun _ => ?_⟩
      rw [answerKey_only]

/-- Settles O28: the step of either driver goes straight on with the cycle, and what follows a complete cycle is left
out. -/
theorem waitingSuspendsTheDriver : Obligations.WaitingSuspendsTheDriver := by
  intro s hwf hw hkey
  obtain ⟨-, -, -, hconflict, -, -, -, hwait⟩ := hwf
  obtain ⟨hin, hi, hhost, hdue⟩ := hwait hw
  obtain ⟨x, hx⟩ := exists_eq_opFx0A_of_isKeyWait hi
  have hcycle : cycle s = .next { s with answers := s.answerKey.2.answers, draws := s.answerKey.2.draws } := by
    rw [cycle, hx, exec_opFx0A_of_waiting x hin hw hkey]
  cases hturn : s.turn
  case scheduler =>
    obtain ⟨hrun, -⟩ := (turn_scheduler_iff s).1 hturn
    rw [step_of_scheduler hturn, schedulerStep_of_iteration (.inr ⟨hw, rfl⟩), iterationBody_due (hdue hrun) hcycle,
      State.afterSchedulerCycle, if_pos hw]
  case debugger =>
    rw [step_of_debugger hturn, debuggerStep_of_attempt (.inr ⟨hw, rfl⟩), attemptBody_next hcycle, if_pos hw]
  case host => exact absurd hturn hhost
  case conflict => exact absurd hturn hconflict

/-- Settles O30: with a Display attached the instruction is one call on it, whose rows are the bytes from I on, and one
write of VF. -/
theorem drawPassesTheSpriteAndWritesVf : Obligations.DrawPassesTheSpriteAndWritesVf := by
  intro x y n s
  have hexec := exec_opDxyn x y n s
  cases hd : s.config.hasDisplay
  case false =>
    rw [hd, if_neg Bool.false_ne_true] at hexec
    exact ⟨_, hexec, advancedBy2_advance s, fun _ => rfl, rfl, fun _ => rfl, nofun⟩
  case true =>
    rw [if_pos hd] at hexec
    refine ⟨_, hexec, ?_, ?_, ?_, nofun, fun _ => ⟨_, _, wroteV_drawSprite s x y n, memReadBytes_length ..,
      memReadBytes_getElem? s _ _, displayDraw_calls _ _ _ n hd, ?_, ?_⟩⟩
    · rw [drawSprite_only]
      exact advancedBy2_advance _
    · rw [drawSprite_only]
      exact fun _ => rfl
    · unfold State.advance
      rw [drawSprite_only]
    · refine fun horacle => ⟨displayDraw_pixels_of_oracle _ _ _ n horacle, fun b rest hb => ?_⟩
      rw [displayDraw_of_oracle _ _ _ n horacle]
      exact answerCollision_of_collisions hb
    · exact fun hreference => displayDraw_of_reference _ _ _ n hreference

/-- Settles O31: drawing is a sequence of flips, of the covered pixels and no other; where the sprite fits, each is
flipped once, and in any case the second draw flips each as often as the first. -/
theorem referenceDrawXorsTheSprite : Obligations.ReferenceDrawXorsTheSprite := by
  intro c x0 y0 rows ps hps
  simp only [drawRows_eq_foldl, ← mem_spritePixels]
  refine ⟨fun hw hh => ⟨fun q => ?_, ?_⟩, foldl_flipPixel_twice _ hps⟩
  · rw [mem_foldl_flipPixel hps, (spritePixels_nodup hw x0 hh).count]
    exact ⟨fun hq => by simp [hq], fun hq => by simp [hq]⟩
  · rw [collision_foldl_flipPixel (spritePixels_nodup hw x0 hh) hps]
    simp

/-- Settles O25: each is one write, of a register or of a timer. -/
theorem timerRegisterInstructions : Obligations.TimerRegisterInstructions := fun x s =>
  ⟨encodeXNN_toNat_match 0xF x 0x07, encodeXNN_toNat_match 0xF x 0x15, encodeXNN_toNat_match 0xF x 0x18,
    wroteV_of_exec_eq (exec_opFx07 x s) rfl,
    ⟨_, exec_opFx15 x s, setDT_advance_only s _, advancedBy2_advance _, rfl⟩,
    ⟨_, exec_opFx18 x s, setST_advance_only s _, advancedBy2_advance _, rfl⟩⟩

/-- Settles O26: both are a skip on the same key test. -/
theorem keySkipsFollowTheInput : Obligations.KeySkipsFollowTheInput := by
  intro x s
  refine ⟨encodeXNN_toNat_match 0xE x 0x9E, encodeXNN_toNat_match 0xE x 0xA1, (s.keyPressed (s.getV x)).1, _, _, ?_,
    ?_, exec_opEx9E x s, keyPressed_skipIf_only s _ _, skippedIf_keyPressed_skipIf s _ Iff.rfl,
    exec_opExA1 x s, keyPressed_skipIf_only s _ _, skippedIf_keyPressed_skipIf s _ (by rw [Bool.not_eq_true']), ?_,
    ?_⟩
  · intro hin
    rw [keyPressed_headless hin]
  · intro hin b rest hb
    rw [keyPressed_of_hasInput hin]
    exact answerKeyDown_of_keysDown hb _
  · exact fun hin => ⟨keyPressed_calls_of_hasInput hin _, keyPressed_calls_of_hasInput hin _⟩
  · intro hin
    rw [keyPressed_headless hin]
    exact ⟨skipIf_only s _, skipIf_only s _⟩

/-- Settles O29: the clearing is one update of the record of calls and the pixels. -/
theorem clearDisplayTouchesNoRegister : Obligations.ClearDisplayTouchesNoRegister := by
  intro s
  refine ⟨rfl, _, exec_op00E0 s, ?_⟩
  rw [displayClear_eq]
  exact ⟨rfl, advancedBy2_advance _, rfl, rfl⟩

end Sys2Proof.Machine
end

section
/-! SUPPORT. The timer tick as arithmetic on the timers' values, once and iterated (spec/46_timer_tick.md R210, R211). -/

namespace Sys2Proof.Machine

@[simp] theorem decrementTimer_zero : decrementTimer 0 = 0 := rfl

@[simp] theorem toNat_decrementTimer (b : Byte) : (decrementTimer b).toNat = b.toNat - 1 := by
  rw [decrementTimer_eq, BitVec.toNat_ofNat]
  exact Nat.mod_eq_of_lt (Nat.lt_of_le_of_lt (Nat.sub_le _ 1) b.isLt)

/-- Reading a timer's value turns ticks into predecessors, and Mathlib iterates those; one argument for both timers. -/
theorem toNat_iterate_timerTick {timer : State → Byte} (htick : ∀ s, timer s.timerTick = decrementTimer (timer s))
    (s : State) (n : Nat) : (timer (State.timerTick^[n] s)).toNat = (timer s).toNat - n := by
  have hpred : Function.Semiconj (fun t => (timer t).toNat) State.timerTick Nat.pred := fun t => by
    simp only [htick, toNat_decrementTimer, Nat.pred_eq_sub_one]
  exact (hpred.iterate_right n s).trans (Nat.pred_iterate _ n)

end Sys2Proof.Machine
end

section
/-! PROOFS. The statements on the timer tick (spec/46_timer_tick.md), settled from the lemmas above. -/

namespace Sys2Proof.Machine

/-- Settles O41: each timer's value goes down as the natural numbers do. -/
theorem timersReachZeroAfterTheirValue : Obligations.TimersReachZeroAfterTheirValue := fun s n =>
  ⟨toNat_iterate_timerTick timerTick_dt s n, toNat_iterate_timerTick timerTick_st s n⟩

/-- Settles O40: the tick is one decrement of each timer. -/
theorem timerTickDecrementsEachTimer : Obligations.TimerTickDecrementsEachTimer := by
  intro s
  refine ⟨rfl, fun _ => ?_, fun hdt => ?_, fun _ => ?_, fun hst => ?_⟩
  · rw [timerTick_dt, toNat_decrementTimer]
  · rw [timerTick_dt, hdt, decrementTimer_zero]
  · rw [timerTick_st, toNat_decrementTimer]
  · rw [timerTick_st, hst, decrementTimer_zero]

end Sys2Proof.Machine
end

section
/-! SUPPORT. The run loop (spec/47_scheduler.md): the time sample and the poll case by case, what a step of the
Scheduler does (R224, R226), and what it does to the two clocks (R227). -/

namespace Sys2Proof.Machine

/-! ### The time sample (R222) -/

theorem sampleNow_of_elapsed {s : State} {e : Time} {es : List Time} (h : s.answers.elapsed = e :: es) :
    s.sampleNow = { s with now := s.now + max 0 e, answers := { s.answers with elapsed := es } } := by
  rw [State.sampleNow, State.answerElapsed, h]

theorem sampleNow_of_elapsed_nil {s : State} (h : s.answers.elapsed = []) :
    s.sampleNow = { s with now := s.now + max 0 (Config.freeElapsed s.draws), draws := s.draws + 1 } := by
  rw [State.sampleNow, State.answerElapsed, h]
  rfl

theorem sampleNow_hostCalls (s : State) (q : List HostCall) :
    ({ s with hostCalls := q } : State).sampleNow = { s.sampleNow with hostCalls := q } := by
  simp only [State.sampleNow, State.answerElapsed]
  split <;> rfl

/-! ### The poll (R225, R226) -/

theorem sampleCancel_of_cancels {s : State} {c : Bool} {cs : List Bool} (hreq : s.cancelRequested = false)
    (h : s.answers.cancels = c :: cs) :
    s.sampleCancel = { s with cancelRequested := c, answers := { s.answers with cancels := cs } } := by
  rw [State.sampleCancel, hreq, if_neg Bool.false_ne_true, State.answerCancel, h]

theorem pollInput_of_hasInput {s : State} (h : s.config.hasInput = true) :
    s.pollInput = (s.answerPoll.1, s.answerPoll.2.record (.pollAndContinue s.answerPoll.1)) := by
  rw [State.pollInput, if_pos h]

theorem pollInput_of_polls {s : State} {b : Bool} {bs : List Bool} (hin : s.config.hasInput = true)
    (h : s.answers.polls = b :: bs) :
    s.pollInput =
      (b, { s with answers := { s.answers with polls := bs }, calls := .pollAndContinue b :: s.calls }) := by
  rw [pollInput_of_hasInput hin, State.answerPoll, h]
  rfl

theorem pollInput_headless {s : State} (h : s.config.hasInput = false) : s.pollInput = (true, s) := by
  rw [State.pollInput, h, if_neg Bool.false_ne_true]

/-- A cancellation request, made before or sampled now, closes the poll without asking the Input. -/
theorem pollOpen_of_cancel {s : State} (h : s.sampleCancel.cancelRequested = true) :
    s.pollOpen = (false, s.sampleCancel) := by
  rw [State.pollOpen, if_pos h]

theorem pollOpen_of_no_cancel {s : State} (h : s.sampleCancel.cancelRequested = false) :
    s.pollOpen = s.sampleCancel.pollInput := by
  rw [State.pollOpen, h, if_neg Bool.false_ne_true]

theorem sampleCancel_config (s : State) : s.sampleCancel.config = s.config := by
  rw [sampleCancel_only]

theorem sampleCancel_calls (s : State) : s.sampleCancel.calls = s.calls := by
  rw [sampleCancel_only]

/-- With no Input attached the poll answers whether no cancellation is requested (R225). -/
theorem pollOpen_headless {s : State} (h : s.config.hasInput = false) :
    s.pollOpen.1 = !s.pollOpen.2.cancelRequested := by
  rw [← sampleCancel_config] at h
  cases hc : s.sampleCancel.cancelRequested
  case true => rw [pollOpen_of_cancel hc, hc, Bool.not_true]
  case false => rw [pollOpen_of_no_cancel hc, pollInput_headless h, hc, Bool.not_false]

/-- With an Input attached the poll is closed by a cancellation request, or is one recorded question to the Input
(R225, R226). -/
theorem pollOpen_of_hasInput {s : State} (h : s.config.hasInput = true) :
    (s.pollOpen.2.cancelRequested = true ∧ s.pollOpen.1 = false ∧ s.pollOpen.2.calls = s.calls) ∨
    (s.pollOpen.2.cancelRequested = false ∧ s.pollOpen.2.calls = .pollAndContinue s.pollOpen.1 :: s.calls) := by
  rw [← sampleCancel_config] at h
  cases hc : s.sampleCancel.cancelRequested
  case true =>
    rw [pollOpen_of_cancel hc]
    exact .inl ⟨hc, rfl, sampleCancel_calls s⟩
  case false =>
    rw [pollOpen_of_no_cancel hc, pollInput_of_hasInput h, record_cancelRequested, record_calls, answerPoll_only]
    exact .inr ⟨hc, congrArg _ (sampleCancel_calls s)⟩

/-! ### The end of an iteration (R224, R228) -/

theorem finishIteration_of_timerPeriod_le {s : State} (h : timerPeriod ≤ s.now - s.tTimer) :
    s.finishIteration =
      { s with dt := ticked s.dt, st := ticked s.st, tTimer := s.now, calls := rendered s } := by
  rw [finishIteration_eq, State.tickDue, if_pos (decide_eq_true h)]

theorem finishIteration_of_lt_timerPeriod {s : State} (h : s.now - s.tTimer < timerPeriod) :
    s.finishIteration = { s with calls := rendered s } := by
  rw [finishIteration_eq, State.tickDue, if_neg (by simpa using h)]

/-! ### What a step of the Scheduler does (R224, R226, R233) -/

theorem turn_conflict_iff (s : State) : s.turn = .conflict ↔ s.runState = .running ∧ s.control ≠ .halted := by
  unfold State.turn
  cases s.runState <;> cases s.control <;> simp

theorem schedulerStep_of_closed {s u : State} (hw : s.waiting = false) (h : s.pollOpen = (false, u)) :
    schedulerStep s = .next u.stopRun := by
  rw [schedulerStep, hw, if_neg Bool.false_ne_true, h]

/-- A step of the Scheduler stops the run at a closed poll or is an iteration. -/
theorem schedulerStep_cases {s t : State} (h : schedulerStep s = .next t) :
    (∃ u, s.waiting = false ∧ s.pollOpen = (false, u) ∧ t = u.stopRun) ∨
    ∃ u, IterationFrom s u ∧ u.iterationBody = .next t := by
  cases hw : s.waiting
  case true =>
    have hu : IterationFrom s s := .inr ⟨hw, rfl⟩
    exact .inr ⟨s, hu, (schedulerStep_of_iteration hu).symm.trans h⟩
  case false =>
    rcases hpoll : s.pollOpen with ⟨_ | _, u⟩
    · rw [schedulerStep_of_closed hw hpoll] at h
      exact .inl ⟨u, rfl, rfl, (Host.Outcome.next.inj h).symm⟩
    · have hu : IterationFrom s u.sampleNow := .inl ⟨hw, u, hpoll, rfl⟩
      exact .inr ⟨_, hu, (schedulerStep_of_iteration hu).symm.trans h⟩

/-- An iteration runs a cycle if its period has passed, and else goes straight to its end. -/
theorem iterationBody_cases {u t : State} (h : u.iterationBody = .next t) :
    (cyclePeriod ≤ u.now - u.tCycle ∧ ∃ v, cycle u = .next v ∧ t = v.afterSchedulerCycle) ∨
    t = u.finishIteration := by
  cases hdue : u.cycleDue
  case false =>
    rw [iterationBody_idle hdue] at h
    exact .inr (Host.Outcome.next.inj h).symm
  case true =>
    rw [State.iterationBody, if_pos hdue] at h
    split at h
    next v hv => exact .inl ⟨of_decide_eq_true hdue, v, hv, (Host.Outcome.next.inj h).symm⟩
    next => cases h
    next => cases h

/-! ### The two clocks (R224, R227) -/

theorem pollOpen_clocks {s u : State} {b : Bool} (h : s.pollOpen = (b, u)) :
    u.tCycle = s.tCycle ∧ u.tTimer = s.tTimer := by
  obtain rfl : s.pollOpen.2 = u := congrArg Prod.snd h
  rw [pollOpen_only]
  exact ⟨rfl, rfl⟩

/-- A poll and a time sample set no clock. -/
theorem iterationFrom_clocks {s u : State} (h : IterationFrom s u) : u.tCycle = s.tCycle ∧ u.tTimer = s.tTimer := by
  rcases h with ⟨-, s', hpoll, rfl⟩ | ⟨-, rfl⟩
  · have hclocks := pollOpen_clocks hpoll
    rw [sampleNow_only]
    exact hclocks
  · exact ⟨rfl, rfl⟩

/-- A cycle sets no clock and takes no time sample. -/
theorem cycle_clocks {s t : State} (h : cycle s = .next t) :
    t.now = s.now ∧ t.tCycle = s.tCycle ∧ t.tTimer = s.tTimer := by
  rw [exec_only h]
  exact ⟨rfl, rfl, rfl⟩

/-- A clock that read `c` and now reads `c'` was left alone, or was set to the time sample `now` once its period had
passed (R224). -/
def ClockKeptOrSet (period now c c' : Time) : Prop := c' = c ∨ (c' = now ∧ period ≤ c' - c)

theorem clockKeptOrSet_self (period now c : Time) : ClockKeptOrSet period now c c := .inl rfl

theorem clockKeptOrSet_now {period now c : Time} (h : period ≤ now - c) : ClockKeptOrSet period now c now :=
  .inr ⟨rfl, h⟩

theorem finishIteration_clocks (s : State) :
    s.finishIteration.now = s.now ∧ s.finishIteration.tCycle = s.tCycle ∧
      ClockKeptOrSet timerPeriod s.now s.tTimer s.finishIteration.tTimer := by
  rcases le_or_gt timerPeriod (s.now - s.tTimer) with h | h
  · rw [finishIteration_of_timerPeriod_le h]
    exact ⟨rfl, rfl, clockKeptOrSet_now h⟩
  · rw [finishIteration_of_lt_timerPeriod h]
    exact ⟨rfl, rfl, clockKeptOrSet_self _ _ _⟩

theorem iterationBody_clocks {u t : State} (h : u.iterationBody = .next t) :
    ClockKeptOrSet cyclePeriod t.now u.tCycle t.tCycle ∧ ClockKeptOrSet timerPeriod t.now u.tTimer t.tTimer := by
  rcases iterationBody_cases h with ⟨hdue, v, hv, rfl⟩ | rfl
  · obtain ⟨hnow, hcycle, htimer⟩ := cycle_clocks hv
    rw [← hnow, ← hcycle] at hdue
    rw [← hcycle, ← htimer, State.afterSchedulerCycle]
    split
    · exact ⟨clockKeptOrSet_self _ _ _, clockKeptOrSet_self _ _ _⟩
    · obtain ⟨hnow', hcycle', htimer'⟩ := finishIteration_clocks { v with tCycle := v.now }
      rw [hnow', hcycle']
      exact ⟨clockKeptOrSet_now hdue, htimer'⟩
  · obtain ⟨hnow, hcycle, htimer⟩ := finishIteration_clocks u
    rw [hnow, hcycle]
    exact ⟨clockKeptOrSet_self _ _ _, htimer⟩

end Sys2Proof.Machine
end

section
/-! PROOFS. The statements on the Scheduler (spec/47_scheduler.md), settled from the lemmas above. -/

namespace Sys2Proof.Machine

/-- Settles O42: entry is a time sample, taken with the call off the queue, and two clocks set to it. -/
theorem runEntryStartsBothClocks : Obligations.RunEntryStartsBothClocks := by
  refine ⟨fun s rest hturn hcalls => ?_, fun s => ⟨sampleNow_mono s, fun _ _ => sampleNow_of_elapsed,
    sampleNow_of_elapsed_nil⟩⟩
  refine ⟨_, step_hostCall hturn hcalls, rfl, rfl, rfl, ?_⟩
  rw [State.enterRun, sampleNow_hostCalls]
  exact ⟨rfl, sampleNow_sameInterpreter (sameInterpreter_refl s), rfl, by rw [sampleNow_only]⟩

/-- Settles O43: whether a cycle has completed or none was due, what follows is the end of the iteration, and the
sample and the timer clock are then those the iteration began with. -/
theorem schedulerIterationIsTimed : Obligations.SchedulerIterationIsTimed := by
  intro s u hturn hu
  have hstep : step s = u.iterationBody := (step_of_scheduler hturn).trans (schedulerStep_of_iteration hu)
  refine ⟨⟨iterationFrom_sameInterpreter hu, iterationFrom_clocks hu⟩, fun t hdue ht hw => ?_, fun w hcase => ?_⟩
  · rw [hstep, iterationBody_due (decide_eq_true hdue) ht, State.afterSchedulerCycle, if_pos hw]
  · have hend : w.now = u.now ∧ w.tTimer = u.tTimer ∧ step s = .next w.finishIteration := by
      rcases hcase with ⟨hdue, t, ht, hw, rfl⟩ | ⟨-, hidle, rfl⟩
      · obtain ⟨hnow, -, htimer⟩ := cycle_clocks ht
        refine ⟨hnow, htimer, ?_⟩
        rw [hstep, iterationBody_due (decide_eq_true hdue) ht, State.afterSchedulerCycle, hw,
          if_neg Bool.false_ne_true, hnow]
      · exact ⟨rfl, rfl, hstep.trans (iterationBody_idle (decide_eq_false hidle.not_ge))⟩
    obtain ⟨hnow, htimer, hnext⟩ := hend
    rw [hnext, ← hnow, ← htimer]
    exact ⟨fun hdue => congrArg _ (finishIteration_of_timerPeriod_le hdue),
      fun hidle => congrArg _ (finishIteration_of_lt_timerPeriod hidle)⟩

/-- Settles O44: at a closed poll the step is the loop's return from the state after the poll, and the poll is a sample
of the cancellation request followed, with none, by the Input's answer. -/
theorem schedulerStopsAtAClosedPoll : Obligations.SchedulerStopsAtAClosedPoll := by
  refine ⟨fun s u hturn hw hpoll => ?_, pollOpen_only, fun _ => pollOpen_cancelled, fun _ => pollOpen_headless,
    fun _ => pollOpen_of_hasInput, fun s c cs hreq hcancels => ?_⟩
  · have hsame := pollOpen_sameInterpreter hpoll
    have hclocks := pollOpen_clocks hpoll
    exact ⟨u.stopRun, (step_of_scheduler hturn).trans (schedulerStep_of_closed hw hpoll), rfl, hsame, rfl, hclocks⟩
  · have hsample := sampleCancel_of_cancels hreq hcancels
    refine ⟨?_, ?_, ?_⟩
    · rintro rfl
      rw [pollOpen_of_cancel (by rw [hsample]), hsample]
    · rintro b bs rfl hin hpolls
      rw [pollOpen_of_no_cancel (by rw [hsample]), hsample, ← hreq]
      exact pollInput_of_polls hin hpolls
    · rintro rfl hin
      rw [pollOpen_of_no_cancel (by rw [hsample]), hsample, ← hreq]
      exact pollInput_headless hin

/-- Settles O45: a closed poll sets no clock, and an iteration sets one only where its period has passed. -/
theorem schedulerRatesAreBounded : Obligations.SchedulerRatesAreBounded := by
  intro s t hturn h
  rw [step_of_scheduler hturn] at h
  rcases schedulerStep_cases h with ⟨u, -, hpoll, rfl⟩ | ⟨u, hu, hbody⟩
  · exact (pollOpen_clocks hpoll).imp .inl .inl
  · obtain ⟨hcycle, htimer⟩ := iterationFrom_clocks hu
    rw [← hcycle, ← htimer]
    exact iterationBody_clocks hbody

/-- Settles O46: no agent has the turn where the Scheduler runs and a Debugger call is in progress. -/
theorem concurrentDriversAreRefused : Obligations.ConcurrentDriversAreRefused := fun s hrun hcontrol =>
  step_of_conflict ((turn_conflict_iff s).2 ⟨hrun, hcontrol⟩)

end Sys2Proof.Machine
end

section
/-! SUPPORT. The Debugger (spec/48_debugger.md): what an attempt does, way by way (R244, R245, R247), what an attempt of
`step()` has in common with one of `continueExecution()` (R248, R249), and the reply of a memory dump (R255). -/

namespace Sys2Proof.Machine

/-! ### The ways an attempt goes (R244, R245, R247) -/

theorem debuggerStep_of_closed {s u : State} (h : s.pollOpen = (false, u)) (hw : s.waiting = false) :
    debuggerStep s = .next (u.endDebug .closed) := by
  rw [debuggerStep, hw, if_neg Bool.false_ne_true, h]

theorem debuggerStep_of_breakpoint {s u : State} (h : s.pollOpen = (true, u)) (hw : s.waiting = false)
    (hbp : u.pc ∈ u.bp) : debuggerStep s = .next (u.endDebug (.breakpointHit u.pc)) := by
  rw [debuggerStep, hw, if_neg Bool.false_ne_true, h]
  exact if_pos (List.contains_iff_mem.2 hbp)

/-- An attempt ends at a closed poll, ends at a breakpoint, or runs a cycle. -/
theorem debuggerStep_cases {s t : State} (h : debuggerStep s = .next t) :
    (∃ u, s.waiting = false ∧ s.pollOpen = (false, u) ∧ t = u.endDebug .closed) ∨
    (∃ u, s.waiting = false ∧ s.pollOpen = (true, u) ∧ u.pc ∈ u.bp ∧ t = u.endDebug (.breakpointHit u.pc)) ∨
    ∃ u v, AttemptFrom s u ∧ cycle u = .next v ∧ t = if v.waiting then v else v.finishAttempt := by
  have hbody {u} (hu : AttemptFrom s u) :
      ∃ u v, AttemptFrom s u ∧ cycle u = .next v ∧ t = if v.waiting then v else v.finishAttempt := by
    rw [debuggerStep_of_attempt hu, State.attemptBody] at h
    split at h
    next v hv => exact ⟨u, v, hu, hv, (Host.Outcome.next.inj h).symm⟩
    next => cases h
    next => cases h
  cases hw : s.waiting
  case true => exact .inr (.inr (hbody (.inr ⟨hw, rfl⟩)))
  case false =>
    rcases hpoll : s.pollOpen with ⟨_ | _, u⟩
    · rw [debuggerStep_of_closed hpoll hw] at h
      exact .inl ⟨u, rfl, rfl, (Host.Outcome.next.inj h).symm⟩
    · by_cases hbp : u.pc ∈ u.bp
      · rw [debuggerStep_of_breakpoint hpoll hw hbp] at h
        exact .inr (.inl ⟨u, rfl, rfl, hbp, (Host.Outcome.next.inj h).symm⟩)
      · exact .inr (.inr (hbody (.inl ⟨hw, hpoll, hbp⟩)))

/-! ### The end of an attempt that has executed (R244, R248) -/

theorem finishAttempt_of_stepping {s : State} (h : s.control = .stepping) :
    s.finishAttempt = { s with
      dt := ticked s.dt
      st := ticked s.st
      calls := rendered s
      control := .halted
      hostReplies := .outcome .executed :: s.hostReplies } := by
  simp only [State.finishAttempt, displayRender_eq, State.timerTick, decrementTimer_eq, h]
  rfl

theorem finishAttempt_of_continuing {s : State} (h : s.control = .continuing) :
    s.finishAttempt = { s with dt := ticked s.dt, st := ticked s.st, calls := rendered s } := by
  simp only [State.finishAttempt, displayRender_eq, State.timerTick, decrementTimer_eq, h]

/-! ### What the poll and the cycle of an attempt leave to the Debugger (R225, R257) -/

theorem pollOpen_debugger {s u : State} {b : Bool} (h : s.pollOpen = (b, u)) :
    u.bp = s.bp ∧ u.control = s.control ∧ u.hostReplies = s.hostReplies := by
  obtain rfl : s.pollOpen.2 = u := congrArg Prod.snd h
  rw [pollOpen_only]
  exact ⟨rfl, rfl, rfl⟩

theorem attemptFrom_debugger {s u : State} (h : AttemptFrom s u) :
    u.bp = s.bp ∧ u.control = s.control ∧ u.hostReplies = s.hostReplies := by
  rcases h with ⟨-, hpoll, -⟩ | ⟨-, rfl⟩
  · exact pollOpen_debugger hpoll
  · exact ⟨rfl, rfl, rfl⟩

theorem cycle_debugger {s t : State} (h : cycle s = .next t) :
    t.bp = s.bp ∧ t.control = s.control ∧ t.hostReplies = s.hostReplies := by
  rw [exec_only h]
  exact ⟨rfl, rfl, rfl⟩

/-! ### Which Debugger call is in progress plays no part before the end of an attempt (R248, R257) -/

section
variable {s u : State} (c : DebugControl)

theorem sampleCancel_withControl :
    ({ s with control := c } : State).sampleCancel = { s.sampleCancel with control := c } := by
  simp only [State.sampleCancel, State.answerCancel]
  split
  · rfl
  · split <;> rfl

theorem pollInput_withControl :
    ({ s with control := c } : State).pollInput = (s.pollInput.1, { s.pollInput.2 with control := c }) := by
  simp only [State.pollInput, State.answerPoll]
  split
  · split <;> rfl
  · rfl

theorem pollOpen_withControl {b : Bool} (h : s.pollOpen = (b, u)) :
    ({ s with control := c } : State).pollOpen = (b, { u with control := c }) := by
  obtain ⟨rfl, rfl⟩ : s.pollOpen.1 = b ∧ s.pollOpen.2 = u := Prod.mk.inj h
  rw [State.pollOpen, State.pollOpen, sampleCancel_withControl, pollInput_withControl]
  split <;> rfl

theorem attemptFrom_withControl (h : AttemptFrom s u) :
    AttemptFrom { s with control := c } { u with control := c } := by
  rcases h with ⟨hw, hpoll, hbp⟩ | ⟨hw, rfl⟩
  · exact .inl ⟨hw, pollOpen_withControl c hpoll, hbp⟩
  · exact .inr ⟨hw, rfl⟩

theorem cycle_withControl (h : cycle s = .next u) :
    cycle { s with control := c } = .next { u with control := c } := by
  obtain ⟨hbp, -, -⟩ := cycle_debugger h
  exact (theDebuggerIsInvisibleToTheProgram s u s.bp c h).trans (by rw [← hbp])

end

/-! ### The memory dump (R255) -/

theorem memoryDump_of_lt {s : State} {a b : Nat} (h : b < a) : s.memoryDump a b = .dumpError :=
  if_pos h

theorem memoryDump_of_le {s : State} {a b : Nat} (h : a ≤ b) :
    s.memoryDump a b = .bytes (s.memReadBytes a (b - a + 1)) :=
  if_neg h.not_gt

end Sys2Proof.Machine
end

section
/-! PROOFS. The statements on the Debugger (spec/48_debugger.md), settled from the lemmas above. -/

namespace Sys2Proof.Machine

/-- Settles O47: an attempt ends at a closed poll or at a breakpoint, each in the state after the poll, and else is a
cycle, after which only a complete one is followed by the tick, the render and the return. -/
theorem debuggerStepOutcomes : Obligations.DebuggerStepOutcomes := by
  intro s hrun hcontrol
  have hstep : step s = debuggerStep s :=
    step_of_debugger ((turn_debugger_iff s).2 ⟨hrun, by rw [hcontrol]; nofun⟩)
  refine ⟨fun u hw hpoll => ?_, fun u hw hpoll hbp => ?_, fun u hu => ?_, fun u t hu ht => ?_⟩
  · exact ⟨pollOpen_sameInterpreter hpoll, hstep.trans (debuggerStep_of_closed hpoll hw)⟩
  · exact ⟨pollOpen_sameInterpreter hpoll, hstep.trans (debuggerStep_of_breakpoint hpoll hw hbp)⟩
  · exact ⟨attemptFrom_sameInterpreter hu, (attemptFrom_debugger hu).1⟩
  · obtain ⟨-, hcontrolU, -⟩ := attemptFrom_debugger hu
    obtain ⟨-, hcontrolT, -⟩ := cycle_debugger ht
    rw [hstep, debuggerStep_of_attempt hu, attemptBody_next ht]
    refine ⟨fun hw => by rw [if_pos hw], fun hw => ?_⟩
    rw [if_neg (Bool.eq_false_iff.1 hw), finishAttempt_of_stepping (hcontrolT.trans (hcontrolU.trans hcontrol))]

/-- Settles O48: the two calls poll and cycle alike, so a call that ends before the cycle returns the same, one that
waits waits in the same state, and they differ only in what follows a complete cycle. -/
theorem continueIsRepeatedStep : Obligations.ContinueIsRepeatedStep := by
  intro s t hrun h
  have hstep (c : DebugControl) (hc : c ≠ .halted) :
      step { s with control := c } = debuggerStep { s with control := c } :=
    step_of_debugger ((turn_debugger_iff _).2 ⟨hrun, hc⟩)
  rw [hstep .stepping nofun] at h
  rw [hstep .continuing nofun]
  rcases debuggerStep_cases h with ⟨u, hw, hpoll, rfl⟩ | ⟨u, hw, hpoll, hbp, rfl⟩ | ⟨u, v, hu, hv, rfl⟩
  · have hclosed := debuggerStep_of_closed (pollOpen_withControl .continuing hpoll) hw
    exact .inr (.inl ⟨rfl, by simp, hclosed⟩)
  · have hhit := debuggerStep_of_breakpoint (pollOpen_withControl .continuing hpoll) hw hbp
    exact .inr (.inl ⟨rfl, by simp, hhit⟩)
  · obtain ⟨-, hcontrolU, hrepliesU⟩ := attemptFrom_debugger hu
    obtain ⟨-, hcontrolV, hrepliesV⟩ := cycle_debugger hv
    have hcontrol : v.control = .stepping := hcontrolV.trans hcontrolU
    have hreplies : v.hostReplies = s.hostReplies := hrepliesV.trans hrepliesU
    have hbody := (debuggerStep_of_attempt (attemptFrom_withControl .continuing hu)).trans
      (attemptBody_next (cycle_withControl .continuing hv))
    cases hw : v.waiting
    case true => exact .inr (.inr ⟨hcontrol, hbody.trans (congrArg _ (if_pos hw))⟩)
    case false =>
      rw [if_neg (Bool.eq_false_iff.1 hw), finishAttempt_of_continuing rfl] at hbody
      rw [if_neg Bool.false_ne_true, finishAttempt_of_stepping hcontrol]
      exact .inl ⟨rfl, by rw [hreplies], hbody.trans (by rw [← hreplies])⟩

/-- Settles O50: each inspection is a reply and no more, and the reply of a dump is a run of reads. -/
theorem inspectionReadsWithoutChanging : Obligations.InspectionReadsWithoutChanging := by
  intro s rest a b hturn
  refine ⟨fun hc => step_hostCall hturn hc, fun hc hlt => ?_, fun hc hle => ?_⟩
  · rw [step_hostCall hturn hc, hostCall, memoryDump_of_lt hlt]
    rfl
  · refine ⟨s.memReadBytes a (b - a + 1), ?_, memReadBytes_length .., fun k hk => ?_⟩
    · rw [step_hostCall hturn hc, hostCall, memoryDump_of_le hle,
        memReadBytes_congr (s := s) (t := { s with hostCalls := rest }) rfl rfl]
      rfl
    · exact memReadBytes_getElem? s a _ k (by rwa [memReadBytes_length] at hk)

end Sys2Proof.Machine
end
